-- ==== Sys2Proof/Word.lean ====
section
/-! DEFINITION. The words of the block: a register is 32 bits (R9, R20), a byte is 8, and the block decodes nine
address bits (R60). A binary32 number is held as its 32-bit encoding (R68). -/

namespace Sys2Proof

/-- One byte of a host's view of the register space (R68). -/
abbrev Byte := BitVec 8

/-- A register value or a command word: 32 bits, numbered 31 down to 0 (R9). -/
abbrev Word := BitVec 32

/-- A register address as the block decodes it: address bits [8:0] (R60). -/
abbrev Addr := BitVec 9

/-- A binary32 value, by its encoding: sign 31, biased exponent 30:23, fraction 22:0 (R68, R100). -/
abbrev F32 := Word

end Sys2Proof
end

