-- ==== Sys2Proof/Syntax.lean ====
section
/-! DEFINITION. The block's commands (spec/opcode_table.json, R81) and what reaches the block from outside: the
host's bus accesses (R62, R88) and the reset input (R330). -/

namespace Sys2Proof

/-- The seven commands (R81), one constructor per row of spec/opcode_table.json. A command carries no operand,
register number or immediate (R84). -/
inductive Instr
  | nop
  | synStep
  | synResetOps
  | synResetDcb
  | synReset
  | fltStep
  | fltReset
  deriving DecidableEq, Repr

/-- The width of a host access in bits; only 32 is legal (R62). -/
inductive Width
  | w8
  | w16
  | w32
  deriving DecidableEq, Repr

/-- One thing the outside world does to the block: a host read or write of a width at a register address (R62,
R90; a narrow write's data stands in the low bits), or the platform's hardware reset (R330). -/
inductive HostEvent
  | read (w : Width) (a : Addr)
  | write (w : Width) (a : Addr) (v : Word)
  | reset
  deriving DecidableEq, Repr

/-- The response types of the filter sections (R224). -/
inductive FilterType
  | lp
  | hp
  | bp
  | notch
  | ap
  deriving DecidableEq, Repr, Inhabited

/-- The filter engine's processing paths (R250). -/
inductive FilterPath
  | one
  | two
  | cas
  deriving DecidableEq, Repr, Inhabited

/-- The wave folder's types, numbered 0, 1, 2 (R155). -/
inductive FoldType
  | symmetric
  | asymmetric
  | softClip
  deriving DecidableEq, Repr, Inhabited

end Sys2Proof
end

