-- ==== Sys2Proof/WellFormed.lean ====
section
/-! DEFINITION. What the spec calls legal: a command word (R80, R82), a bus access (R62), an algorithm entry
(R177). An `Instr` has no operand (R84), so every `Instr` is well formed. -/

namespace Sys2Proof

/-- A command has no operand to check (R84): every one is well formed. -/
def Instr.wellFormed : Instr → Bool
  | .nop | .synStep | .synResetOps | .synResetDcb | .synReset | .fltStep | .fltReset => true

/-- The command codes of R81. -/
def legalOps : List Nat := [0x00, 0x01, 0x02, 0x03, 0x04, 0x10, 0x11]

/-- A legal command word: RSV (bits 31:8) is 0 and OP (bits 7:0) is a command code (R80, R81). -/
def wordWellFormed (w : Word) : Bool := w.toNat / 2 ^ 8 == 0 && legalOps.contains (w.toNat % 2 ^ 8)

/-- `addr[1:0] = 0` (R62). -/
def aligned (a : Addr) : Bool := a.toNat % 4 == 0

/-- A legal access: 32 bits wide and aligned (R62). -/
def accessWellFormed (w : Width) (a : Addr) : Bool := w == .w32 && aligned a

/-- Bit 4·src + dst of an algorithm entry: does operator src phase-modulate operator dst (R32)? -/
def modBit (e : Word) (src dst : Fin 4) : Bool := e.getLsbD (4 * src.val + dst.val)

/-- Bit 16 + i of an algorithm entry: is operator i a carrier (R32)? -/
def carrierBit (e : Word) (i : Fin 4) : Bool := e.getLsbD (16 + i.val)

/-- An algorithm entry that meets R177 (1) and the layout of R32: no bit with src ≤ dst, and bits 31:20 are 0. -/
def algEntryWellFormed (e : Word) : Bool :=
  (List.finRange 4).all (fun src => (List.finRange 4).all (fun dst => decide (dst < src) || !modBit e src dst))
    && e.toNat / 2 ^ 20 == 0

end Sys2Proof
end

