-- ==== Sys2Proof/Decode.lean ====
section
/-! DEFINITION. Decoding a command word (R80 to R83), and the encoder. -/

namespace Sys2Proof

/-- Why a word is no command (R82), by name. -/
inductive DecodeError
  /-- Bits 31:8 are not 0. -/
  | reservedBits
  /-- Bits 31:8 are 0 and bits 7:0 are no command code of R81. -/
  | unassignedOp
  /-- Fewer than four bytes: no command word. -/
  | truncated
  deriving DecidableEq, Repr

/-- What the decoder answers: a command, or the reason there is none. -/
inductive Decoded
  | legal (i : Instr)
  | illegal (e : DecodeError)
  deriving DecidableEq, Repr

/-- The RSV field, bits 31:8 (R80). -/
def rsvField (w : Word) : Nat := w.toNat / 2 ^ 8

/-- The OP field, bits 7:0 (R80). -/
def opField (w : Word) : Nat := w.toNat % 2 ^ 8

/-- The command codes (R81). -/
def decodeOp : Nat → Decoded
  | 0x00 => .legal .nop
  | 0x01 => .legal .synStep
  | 0x02 => .legal .synResetOps
  | 0x03 => .legal .synResetDcb
  | 0x04 => .legal .synReset
  | 0x10 => .legal .fltStep
  | 0x11 => .legal .fltReset
  | _ => .illegal .unassignedOp

/-- `execute_command`'s decoding (R83): RSV is checked first, then OP. -/
def decode (w : Word) : Decoded :=
  if rsvField w = 0 then decodeOp (opField w) else .illegal .reservedBits

/-- The command codes, from the command to its OP (R81). -/
def opcode : Instr → Nat
  | .nop => 0x00
  | .synStep => 0x01
  | .synResetOps => 0x02
  | .synResetDcb => 0x03
  | .synReset => 0x04
  | .fltStep => 0x10
  | .fltReset => 0x11

/-- The command word: OP in bits 7:0, RSV 0 (R80, R81). -/
def encode (i : Instr) : Word := BitVec.ofNat 32 (opcode i)

/-- Byte k of a word is bits 8k+7 to 8k: little-endian (R68). -/
def byteOf (w : Word) (k : Nat) : Byte := BitVec.ofNat 8 (w.toNat / 2 ^ (8 * k))

/-- The four bytes of a word, at rising host addresses (R68). -/
def bytesOfWord (w : Word) : List Byte := [byteOf w 0, byteOf w 1, byteOf w 2, byteOf w 3]

/-- The word of four bytes at rising host addresses (R68). -/
def wordOfBytes (b0 b1 b2 b3 : Byte) : Word :=
  BitVec.ofNat 32 (b0.toNat + b1.toNat * 2 ^ 8 + b2.toNat * 2 ^ 16 + b3.toNat * 2 ^ 24)

/-- A host's byte view of a command stream: four bytes make one command word (R80: no other length exists). -/
def decodeBytes : List Byte → Decoded × List Byte
  | b0 :: b1 :: b2 :: b3 :: rest => (decode (wordOfBytes b0 b1 b2 b3), rest)
  | short => (.illegal .truncated, short)

/-- A command as its four bytes. -/
def encodeBytes (i : Instr) : List Byte := bytesOfWord (encode i)

/-- The command, where there is one. -/
def Decoded.instr? : Decoded → Option Instr
  | .legal i => some i
  | .illegal _ => none

/-- The command of a table word: every command is one 32-bit word (R80), laid out in the byte order of R68. A number
that does not fit the word is no command. -/
def decodeTableWord (nbits w : Nat) : Option Instr :=
  if nbits ≤ 32 ∧ w < 2 ^ 32 then (decodeBytes (bytesOfWord (BitVec.ofNat 32 w))).1.instr? else none

end Sys2Proof
end

