-- ==== Sys2Proof/Config.lean ====
section
/-! DEFINITION. The implementation parameters of R7: what is fixed for a machine and what the spec leaves OPEN.
`Config` is the record of them that the rules are written over. The OPEN ones of the machine itself are opaque
constants: nothing in Lean can compute one or prove a value of one. They stand below; the filter's
stands in `Machine/Contract.lean` and its type says R231, the resonance curve's in `Machine/Params.lean` and its type says
R287. `Machine/Params.lean` builds the machine's record from them, so that it has
every property R104, R177, R231, R282 and R287 require and nothing more (log entry 2).
The parameters to which the spec gives a default stand at that default (log entry 4). -/

namespace Sys2Proof

/-- The two coefficients of the one-pole design (R222). -/
structure Coef1 where
  c0 : F32
  c1 : F32
  deriving DecidableEq, Repr, Inhabited

/-- The four coefficients of the two-pole design (R224). -/
structure Coef2 where
  c0 : F32
  c1 : F32
  c2 : F32
  c3 : F32
  deriving DecidableEq, Repr, Inhabited

/-- The three intermediate values of the two-pole design (R223). -/
structure Tvk where
  t : F32
  v : F32
  k : F32
  deriving DecidableEq, Repr, Inhabited

/-- The two state variables of a two-pole section (R227). -/
structure Pair where
  s1 : F32
  s2 : F32
  deriving DecidableEq, Repr, Inhabited

/-- The OPEN parts of the filter's designer and sections (R7, R220 to R227), as one record. `TAPS2` has no field of its
own: it is part of `COEF2`, `YA` and `YB`, the places where R223 says it may be used. -/
structure FilterParts where
  /-- `W_FN(T, fc)` (R220). -/
  wFn : F32 → F32 → F32
  /-- `W_TH1` (R221). -/
  wTh1 : F32
  /-- `SIGMA_REF1` (R221). -/
  sigmaRef1 : F32
  /-- `SIGMA_RAT1(w²)` (R221). -/
  sigmaRat1 : F32 → F32
  /-- `COEF1(w, sigma, v)` (R221). -/
  coef1 : F32 → F32 → F32 → Coef1
  /-- `W_TH2` (R223). -/
  wTh2 : F32
  /-- `SIGMA_REF2` (R223). -/
  sigmaRef2 : F32
  /-- `SIGMA_RAT2(w²)` (R223). -/
  sigmaRat2 : F32 → F32
  /-- `TVK2(w, sigma, zeta)` (R223). -/
  tvk2 : F32 → F32 → F32 → Tvk
  /-- `COEF2(t, v, k, type)` (R223). -/
  coef2 : F32 → F32 → F32 → FilterType → Coef2
  /-- `U1(s, x, c)` (R225). -/
  u1 : F32 → F32 → Coef1 → F32
  /-- `Y1_LP(s, x, c)` (R225). -/
  y1Lp : F32 → F32 → Coef1 → F32
  /-- `Y1_HP(s, x, c)` (R225). -/
  y1Hp : F32 → F32 → Coef1 → F32
  /-- `U2(s1, s2, x, c)` (R227). -/
  u2 : F32 → F32 → F32 → Coef2 → Pair
  /-- `YA(type, s1, s2, x, c)`, for LP, NOTCH and AP (R227). -/
  yA : FilterType → F32 → F32 → F32 → Coef2 → F32
  /-- `YB(type, s1, s2, x, c)`, for HP and BP (R227). -/
  yB : FilterType → F32 → F32 → F32 → Coef2 → F32

/-- The parameters of R7, as one record: the filter's, and the others. -/
structure Config extends FilterParts where
  /-- `Fsin` (R104). -/
  fsin : F32 → F32
  /-- `Fasin` (R104). -/
  fasin : F32 → F32
  /-- `DCB_R` (R193). -/
  dcbR : F32
  /-- `EXT_EPS` (R196). -/
  extEps : F32
  /-- `ALG_TABLE`, as the words of `ALG_ROM` (R32, R176). -/
  algTable : Fin 11 → Word
  /-- `ALG_ALL_CARRIERS` (R177). -/
  algAllCarriers : Fin 11
  /-- `MODE_TABLE` (R252). -/
  modeTable : Fin 12 → FilterPath × FilterType
  /-- `Fexp2`, host side (R282). -/
  fexp2 : F32 → F32
  /-- `RES_CURVE`, host side (R287). -/
  resCurve : F32 → F32

/-! ## The machine's OPEN parameters: constants without a body -/

opaque Config.fsinRaw : F32 → F32
opaque Config.fasinRaw : F32 → F32
opaque Config.algTableRaw : Fin 11 → Word
opaque Config.fexp2Raw : F32 → F32

/-- The bits a stored NaN takes its payload from (R101: `any value`): a free value for every index and every
register address (log entry 3). -/
opaque Config.freeNaNRaw : Nat → Nat → Word

/-- The states a two-pole section's update comes to from (s1, s2), x and c where x is outside the range R231 speaks of: a
free value (log entry 20). -/
opaque Config.u2BeyondRaw : F32 → F32 → F32 → Coef2 → Pair

/-- The output of a type's two-pole section from (s1, s2), x and c there: a free value (log entry 20). -/
opaque Config.y2BeyondRaw : FilterType → F32 → F32 → F32 → Coef2 → F32

/-- The sign of the zero that a gain of 0 makes of a DC blocker output that is no finite number, for every index: R199 lets
it be either (log entry 21). -/
opaque Config.silentSignRaw : Nat → Bool

/-- `BLOCK_BASE`: where the register space sits in the host's address space (R60). -/
opaque Config.blockBase : Nat

/-- `LAT_SYN`, `LAT_FLT` and the other latencies of R345, in cycles: fixed numbers that no rule depends on. -/
opaque Config.latency : Instr → Nat

/-! ## The parameters with a default -/

/-- `DCB_R`'s default, a 20 Hz pole at a 48 kHz rate (R193, D20). -/
def Config.dcbRDefault : F32 := 0x3F7F54A7#32

/-- `EXT_EPS`'s default, 1e-6 (R196, D21). -/
def Config.extEpsDefault : F32 := 0x358637BD#32

/-- `ALG_ALL_CARRIERS`'s default (R177, D17). -/
def Config.algAllCarriersDefault : Fin 11 := 8

/-- The ROM word of the entry with four carriers and no modulation (R32, R177). -/
def Config.allCarriersWord : Word := 0x000F0000#32

/-- `MODE_TABLE`'s default (R252, D23). -/
def Config.modeTableDefault (m : Fin 12) : FilterPath × FilterType :=
  match m with
  | 0 => (.one, .lp)
  | 1 => (.one, .hp)
  | 2 => (.two, .lp)
  | 3 => (.two, .hp)
  | 4 => (.two, .bp)
  | 5 => (.two, .notch)
  | 6 => (.two, .ap)
  | 7 => (.cas, .lp)
  | 8 => (.cas, .hp)
  | 9 => (.cas, .bp)
  | 10 => (.cas, .notch)
  | 11 => (.cas, .ap)

end Sys2Proof
end

