-- ==== Sys2Proof/Machine/Float.lean ====
section
/-! DEFINITION. IEEE 754 binary32 arithmetic (R100, R105, R10): each operation is computed exactly on integers and
rounded ONCE, to nearest, ties to even, with gradual underflow. The unit of magnitude is 2^-149, the smallest
subnormal, so that every finite binary32 number is an integer number of units.
INSIDE a computation every NaN is the one word `qNaN`: R101 lets a NaN's payload be any value, and no rule reads a
payload; where a command stores a NaN in a register, `Machine.sealNaN` gives it a free payload (log entry 3). -/

namespace Sys2Proof

/-- The sign bit, bit 31 (R68). -/
def signBit (x : F32) : Bool := x.getLsbD 31

/-- The biased exponent, bits 30:23 (R68). -/
def expField (x : F32) : Nat := x.toNat / 2 ^ 23 % 2 ^ 8

/-- The fraction, bits 22:0 (R68). -/
def fracField (x : F32) : Nat := x.toNat % 2 ^ 23

/-- `isNaN(x)` of R10. -/
def isNaN (x : F32) : Bool := expField x == 255 && fracField x != 0

/-- Plus or minus infinity. -/
def isInf (x : F32) : Bool := expField x == 255 && fracField x == 0

/-- `isFinite(x)` of R10: neither a NaN nor an infinity. -/
def isFinite (x : F32) : Bool := expField x != 255

/-- The magnitude in units of 2^-149. An infinity gets the magnitude just past the largest finite one, so that
comparisons need no case for it. -/
def mag (x : F32) : Nat :=
  if expField x = 0 then fracField x else (2 ^ 23 + fracField x) * 2 ^ (expField x - 1)

/-- The signed value in units of 2^-149; both zeros give 0. -/
def sval (x : F32) : Int := if signBit x then -(mag x : Int) else (mag x : Int)

/-- +0.0 -/
def zeroF : F32 := 0x00000000#32

/-- -0.0 -/
def negZeroF : F32 := 0x80000000#32

/-- 1.0 -/
def oneF : F32 := 0x3F800000#32

/-- 0.5 -/
def halfF : F32 := 0x3F000000#32

/-- The one NaN of a computation in progress; its payload reaches no register (R101, log entry 3). -/
def qNaN : F32 := 0x7FC00000#32

/-- The encoding with the given sign and the given bits 30:0. -/
def packF (neg : Bool) (bits : Nat) : F32 := BitVec.ofNat 32 ((if neg then 2 ^ 31 else 0) + bits)

/-- The infinity of a sign. -/
def infF (neg : Bool) : F32 := packF neg 0x7F800000

/-- n / d to the nearest integer, ties to even. -/
def roundQuot (n d : Nat) : Nat :=
  let q := n / d
  let r := n % d
  if d < 2 * r ∨ (2 * r = d ∧ q % 2 = 1) then q + 1 else q

/-- Bits 30:0 of num/den units of 2^-149 rounded to nearest even (R100). Below 2^24 units the spacing is one unit;
above, the spacing 2^k doubles with each binade; what rounds past the largest finite number is infinity. -/
def roundMag (num den : Nat) : Nat :=
  let k := Nat.log2 (num / den) - 23
  min (k * 2 ^ 23 + roundQuot num (den * 2 ^ k)) 0x7F800000

/-- The binary32 number nearest to ±num/den units of 2^-149. -/
def roundF (neg : Bool) (num den : Nat) : F32 := packF neg (roundMag num den)

/-- Negation: the sign bit flipped (R105). -/
def fNeg (x : F32) : F32 := packF (!signBit x) (x.toNat % 2 ^ 31)

/-- `|x|`: the sign bit cleared (R10). -/
def fAbs (x : F32) : F32 := packF false (x.toNat % 2 ^ 31)

/-- `x + y` (R100). An exact sum of zero is +0.0 unless both operands are negative (round to nearest even). -/
def fAdd (x y : F32) : F32 :=
  if isNaN x || isNaN y then qNaN
  else if isInf x then (if isInf y && signBit x != signBit y then qNaN else x)
  else if isInf y then y
  else
    let t := sval x + sval y
    if t = 0 then (if signBit x && signBit y then negZeroF else zeroF)
    else roundF (decide (t < 0)) t.natAbs 1

/-- `x - y` (R100). -/
def fSub (x y : F32) : F32 := fAdd x (fNeg y)

/-- `x · y` (R100). -/
def fMul (x y : F32) : F32 :=
  let neg := signBit x != signBit y
  if isNaN x || isNaN y then qNaN
  else if isInf x || isInf y then (if mag x = 0 ∨ mag y = 0 then qNaN else infF neg)
  else roundF neg (mag x * mag y) (2 ^ 149)

/-- `x / y` (R100); a division by zero follows IEEE 754 (no rule's path reaches one, R300). -/
def fDiv (x y : F32) : F32 :=
  let neg := signBit x != signBit y
  if isNaN x || isNaN y then qNaN
  else if isInf x then (if isInf y then qNaN else infF neg)
  else if isInf y then packF neg 0
  else if mag y = 0 then (if mag x = 0 then qNaN else infF neg)
  else roundF neg (mag x * 2 ^ 149) (mag y)

/-- The integer square root of n by trial of the bits below `bits`, from the highest, on top of r. -/
def isqrtFrom (n : Nat) : Nat → Nat → Nat
  | 0, r => r
  | bits + 1, r => isqrtFrom n bits (if (r + 2 ^ bits) * (r + 2 ^ bits) ≤ n then r + 2 ^ bits else r)

/-- `sqrt(x)`, correctly rounded (R105). With n = mag·2^149 the root is √n units; it is at least 2^74, so every
rounding boundary is an integer and an inexact root may stand at the half past its floor. -/
def fSqrt (x : F32) : F32 :=
  if isNaN x then qNaN
  else if mag x = 0 then x
  else if signBit x then qNaN
  else if isInf x then x
  else
    let n := mag x * 2 ^ 149
    let q := isqrtFrom n 214 0
    roundF false (if q * q = n then 2 * q else 2 * q + 1) 2

/-- `floor(x)`, exact (R10, R105). -/
def fFloor (x : F32) : F32 :=
  if isNaN x then qNaN
  else if isInf x then x
  else if signBit x then roundF true ((mag x + (2 ^ 149 - 1)) / 2 ^ 149 * 2 ^ 149) 1
  else roundF false (mag x / 2 ^ 149 * 2 ^ 149) 1

/-- `x < y`; false with a NaN (R10). -/
def fLt (x y : F32) : Bool := !isNaN x && !isNaN y && decide (sval x < sval y)

/-- `x <= y`; false with a NaN (R10). -/
def fLe (x y : F32) : Bool := !isNaN x && !isNaN y && decide (sval x ≤ sval y)

/-- `x == y` as numbers; false with a NaN (R10). -/
def fEq (x y : F32) : Bool := !isNaN x && !isNaN y && decide (sval x = sval y)

/-- The binary32 number nearest to ±num/den (R10: a literal; R285: an integer converted). -/
def fOfRat (neg : Bool) (num den : Nat) : F32 := roundF neg (num * 2 ^ 149) den

end Sys2Proof
end

