-- ==== Sys2Proof/Machine/Numeric.lean ====
section
/-! DEFINITION. The numeric utilities of spec/40_numeric_utilities.md: the sanitizing clamp, the phase wrap, the
soft-clip saturator and the denormal flush. -/

namespace Sys2Proof.Machine

/-- `clampN(x, lo, hi, n)` (R102). -/
def clampN (x lo hi n : F32) : F32 :=
  if isNaN x then n
  else if fLt x lo then lo
  else if fLt hi x then hi
  else x

/-- `clamp(x, lo, hi)` (R102). -/
def clamp (x lo hi : F32) : F32 := clampN x lo hi lo

/-- `wrap01(x)` (R106). -/
def wrap01 (x : F32) : F32 :=
  if isFinite x then
    let r := fSub x (fFloor x)
    if fLe oneF r then zeroF else r
  else zeroF

/-- 3.0 -/
def threeF : F32 := 0x40400000#32

/-- 9.0 -/
def nineF : F32 := 0x41100000#32

/-- 27.0 -/
def twentySevenF : F32 := 0x41D80000#32

/-- `soft_clip(x)` (R108). -/
def softClip (x : F32) : F32 :=
  if fLe threeF x then oneF
  else if fLe x (fNeg threeF) then fNeg oneF
  else
    let x2 := fMul x x
    fDiv (fMul x (fAdd twentySevenF x2)) (fAdd twentySevenF (fMul nineF x2))

/-- A zero of either sign. -/
def isZeroF (x : F32) : Bool := mag x == 0

/-- binary32 1/48000, the reset value of both period registers (R23, R29) and the period of R231's tests. -/
def defaultPeriod : F32 := 0x37AEC33E#32

/-- A subnormal: not zero, and below the smallest normal magnitude 2^-126 (R111). -/
def isSubnormal (x : F32) : Bool := expField x == 0 && fracField x != 0

/-- `flush_denormal(x)` (R111): a subnormal of either sign becomes +0.0, everything else passes. -/
def flushDenormal (x : F32) : F32 := if isSubnormal x then zeroF else x

end Sys2Proof.Machine
end

