-- ==== Sys2Proof/Machine/Designer.lean ====
section
/-! DEFINITION. The filter's designers and section steps (spec/45_filter_designer.md sections 1 and 2): the structure the
spec gives, over the OPEN parts. -/

namespace Sys2Proof.Machine

/-- `FD1(T, fc)` (R221, R222). A rate at the threshold takes the rational branch. -/
def fd1 (f : FilterParts) (T fc : F32) : Coef1 :=
  let w := f.wFn T fc
  let w2 := fMul w w
  let sigma := if fLt w f.wTh1 then f.sigmaRef1 else f.sigmaRat1 w2
  f.coef1 w sigma (fSqrt (fAdd w2 (fMul sigma sigma)))

/-- `FD2(T, fc, zeta, type)` (R223, R224). -/
def fd2 (f : FilterParts) (T fc zeta : F32) (ty : FilterType) : Coef2 :=
  let w := f.wFn T fc
  let w2 := fMul w w
  let sigma := if fLt w f.wTh2 then f.sigmaRef2 else f.sigmaRat2 w2
  let m := f.tvk2 w sigma zeta
  f.coef2 m.t m.v m.k ty

/-- What a one-pole section step gives: the new state variable and the output (R225). -/
structure Sec1Result where
  s : F32
  y : F32
  deriving DecidableEq, Repr

/-- `SEC1(type, s, x, c)` (R225). The one-pole section has only LP and HP (R226), and no other type reaches it (R252). -/
def sec1 (f : FilterParts) (ty : FilterType) (s x : F32) (k : Coef1) : Sec1Result where
  s := f.u1 s x k
  y := if ty = .lp then f.y1Lp s x k else f.y1Hp s x k

/-- What a two-pole section step gives: the new state variables and the output (R227). -/
structure Sec2Result where
  s : Pair
  y : F32
  deriving DecidableEq, Repr

/-- `SEC2(type, (s1, s2), x, c)` (R227). -/
def sec2 (f : FilterParts) (ty : FilterType) (s : Pair) (x : F32) (k : Coef2) : Sec2Result where
  s := f.u2 s.s1 s.s2 x k
  y :=
    match ty with
    | .lp | .notch | .ap => f.yA ty s.s1 s.s2 x k
    | .hp | .bp => f.yB ty s.s1 s.s2 x k

end Sys2Proof.Machine
end

