-- ==== Sys2Proof/Machine/Contract.lean ====
section
/-! DEFINITION. What R231 requires of every instantiation of the filter's OPEN parts, and the machine's own: an opaque
constant whose type says that it meets all of it. Log entry 2 says how the open points of R231 are read. -/

namespace Sys2Proof.Machine

/-! ## The sanitized domain (R29, R231 property 1) -/

/-- T in [2^-20, 1]. -/
def legalPeriod (T : F32) : Bool := fLe 0x35800000#32 T && fLe T oneF

/-- fc in [20, 20000]. -/
def legalCutoff (fc : F32) : Bool := fLe 0x41A00000#32 fc && fLe fc 0x469C4000#32

/-- zeta in [0.01, 0.707]. -/
def legalDamping (zeta : F32) : Bool := fLe 0x3C23D70A#32 zeta && fLe zeta 0x3F34FDF4#32

/-- x in [-2^20, 2^20]. -/
def legalSample (x : F32) : Bool := fLe 0xC9800000#32 x && fLe x 0x49800000#32

/-- A legal sample is finite: an infinity is beyond 2^20. -/
theorem isFinite_of_legalSample {x : F32} (h : legalSample x = true) : isFinite x = true := by
  simp only [legalSample, fLe, Bool.and_eq_true, decide_eq_true_eq, Bool.not_eq_true'] at h
  obtain ⟨⟨-, hlo⟩, -, hhi⟩ := h
  by_contra hf
  have he : expField x = 255 := by simpa [isFinite] using hf
  have hb : sval 0x49800000#32 = 2 ^ 169 := by decide +kernel
  have ha : sval 0xC9800000#32 = -2 ^ 169 := by decide +kernel
  have hm : (mag x : Int) = (2 ^ 23 + fracField x) * 2 ^ 254 := by
    rw [mag, if_neg (by omega), he]
    norm_num
  rw [ha] at hlo
  rw [hb] at hhi
  unfold sval at hlo hhi
  split at hlo <;> simp_all <;> omega

/-! ## A section driven by a signal, from zero state (the tests of R231 property 4) -/

/-- The one-pole section's state before sample n, each new state flushed as R257 flushes it. -/
def state1 (f : FilterParts) (ty : FilterType) (k : Coef1) (x : Nat → F32) : Nat → F32
  | 0 => zeroF
  | n + 1 => flushDenormal (sec1 f ty (state1 f ty k x n) (x n) k).s

/-- The one-pole section's output at sample n. -/
def output1 (f : FilterParts) (ty : FilterType) (k : Coef1) (x : Nat → F32) (n : Nat) : F32 :=
  (sec1 f ty (state1 f ty k x n) (x n) k).y

/-- A two-pole section's state before sample n, flushed likewise. -/
def state2 (f : FilterParts) (ty : FilterType) (k : Coef2) (x : Nat → F32) : Nat → Pair
  | 0 => ⟨zeroF, zeroF⟩
  | n + 1 =>
    let r := sec2 f ty (state2 f ty k x n) (x n) k
    ⟨flushDenormal r.s.s1, flushDenormal r.s.s2⟩

/-- A two-pole section's output at sample n. -/
def output2 (f : FilterParts) (ty : FilterType) (k : Coef2) (x : Nat → F32) (n : Nat) : F32 :=
  (sec2 f ty (state2 f ty k x n) (x n) k).y

/-- Two like sections in series (R251). -/
def cascade2 (f : FilterParts) (ty : FilterType) (k : Coef2) (x : Nat → F32) : Nat → F32 :=
  output2 f ty k (output2 f ty k x)

/-- binary32 sin(j·15°) for j = 0 to 6. -/
def sineStep : Nat → F32
  | 0 => zeroF
  | 1 => 0x3E8483EE#32
  | 2 => halfF
  | 3 => 0x3F3504F3#32
  | 4 => 0x3F5DB3D7#32
  | 5 => 0x3F7746EA#32
  | _ => oneF

/-- The 10 kHz tone of amplitude 1.0 at 48 kHz, sample n: sin(2π·5n/24), nearest binary32. -/
def tone (n : Nat) : F32 :=
  let j := 5 * n % 12
  let v := sineStep (min j (12 - j))
  if 5 * n % 24 < 12 then v else fNeg v

/-! ## The properties of R231 -/

/-- Property 1: every result is finite over the sanitized domain and every finite state. -/
def FiniteResults (f : FilterParts) : Prop :=
  (∀ T fc, legalPeriod T = true → legalCutoff fc = true →
    isFinite (f.wFn T fc) = true ∧ isFinite (fd1 f T fc).c0 = true ∧ isFinite (fd1 f T fc).c1 = true) ∧
  (∀ T fc zeta ty, legalPeriod T = true → legalCutoff fc = true → legalDamping zeta = true →
    let k := fd2 f T fc zeta ty
    isFinite k.c0 = true ∧ isFinite k.c1 = true ∧ isFinite k.c2 = true ∧ isFinite k.c3 = true) ∧
  (∀ T fc ty s x, legalPeriod T = true → legalCutoff fc = true → isFinite s = true → legalSample x = true →
    let r := sec1 f ty s x (fd1 f T fc)
    isFinite r.s = true ∧ isFinite r.y = true) ∧
  (∀ T fc zeta ty s x, legalPeriod T = true → legalCutoff fc = true → legalDamping zeta = true →
    isFinite s.s1 = true → isFinite s.s2 = true → legalSample x = true →
    let r := sec2 f ty s x (fd2 f T fc zeta ty)
    isFinite r.s.s1 = true ∧ isFinite r.s.s2 = true ∧ isFinite r.y = true)

/-- Property 3: +0.0 state and input give +0.0 state and output, and zeros of any sign give zeros. The property leaves c
unbound; it is asked of the coefficients the designers give over the sanitized domain, as R225 and R227 have c (log
entry 2). -/
def ZeroAtZero (f : FilterParts) : Prop :=
  (∀ T fc ty, legalPeriod T = true → legalCutoff fc = true →
    let k := fd1 f T fc
    sec1 f ty zeroF zeroF k = ⟨zeroF, zeroF⟩ ∧
    ∀ s x, isZeroF s = true → isZeroF x = true →
      isZeroF (sec1 f ty s x k).s = true ∧ isZeroF (sec1 f ty s x k).y = true) ∧
  (∀ T fc zeta ty, legalPeriod T = true → legalCutoff fc = true → legalDamping zeta = true →
    let k := fd2 f T fc zeta ty
    sec2 f ty ⟨zeroF, zeroF⟩ zeroF k = ⟨⟨zeroF, zeroF⟩, zeroF⟩ ∧
    ∀ s x, isZeroF s.s1 = true → isZeroF s.s2 = true → isZeroF x = true →
      isZeroF (sec2 f ty s x k).s.s1 = true ∧ isZeroF (sec2 f ty s x k).s.s2 = true ∧
      isZeroF (sec2 f ty s x k).y = true)

/-- Property 4, first test: at every legal cutoff and T = 1/48000, driven by a constant 1.0, from sample 4800 (100 ms) on
the one-pole low-pass is within 0.001 of 1.0 and the high-pass within 0.001 of 0.0. -/
def SettlesAtDc (f : FilterParts) : Prop :=
  ∀ fc, legalCutoff fc = true → ∀ n, 4800 ≤ n →
    let k := fd1 f defaultPeriod fc
    fLe (fAbs (fSub (output1 f .lp k (fun _ => oneF) n) oneF)) 0x3A83126F#32 = true ∧
    fLe (fAbs (output1 f .hp k (fun _ => oneF) n)) 0x3A83126F#32 = true

/-- The two-pole low-pass coefficients of property 4's tone tests: cutoff 100 Hz, T = 1/48000. -/
def toneCoef (f : FilterParts) (zeta : F32) : Coef2 := fd2 f defaultPeriod 0x42C80000#32 zeta .lp

/-- Property 4, second test: at every legal damping, the 10 kHz tone's output is in the end below 0.01. -/
def AttenuatesTone (f : FilterParts) : Prop :=
  ∀ zeta, legalDamping zeta = true → ∃ settled, ∀ n, settled ≤ n →
    fLt (fAbs (output2 f .lp (toneCoef f zeta) tone n)) 0x3C23D70A#32 = true

/-- Property 4, third test: at every legal damping there is a peak p that the single section's output comes to again and
again, and the cascade's output is in the end below half of it. -/
def CascadeIsSteeper (f : FilterParts) : Prop :=
  ∀ zeta, legalDamping zeta = true → ∃ p settled : Nat,
    (∀ n, ∃ m, n ≤ m ∧ p ≤ mag (output2 f .lp (toneCoef f zeta) tone m)) ∧
    (∀ n, settled ≤ n → 2 * mag (cascade2 f .lp (toneCoef f zeta) tone n) < p)

/-- R231, whole; property 2 holds of every function. -/
def FilterContract (f : FilterParts) : Prop :=
  FiniteResults f ∧ ZeroAtZero f ∧ SettlesAtDc f ∧ AttenuatesTone f ∧ CascadeIsSteeper f

/-! ## The machine's filter -/

/-- Sections without memory that meet R231: the low-pass passes its input or a small constant, the rest give zero. It is
there only so that the machine's filter can be written down; no statement rests on it. -/
def memorylessFilter : FilterParts where
  wFn _ _ := zeroF
  wTh1 := zeroF
  sigmaRef1 := zeroF
  sigmaRat1 _ := zeroF
  coef1 _ _ _ := ⟨zeroF, zeroF⟩
  wTh2 := zeroF
  sigmaRef2 := zeroF
  sigmaRat2 _ := zeroF
  tvk2 _ _ _ := ⟨zeroF, zeroF, zeroF⟩
  coef2 _ _ _ _ := ⟨zeroF, zeroF, zeroF, zeroF⟩
  u1 _ _ _ := zeroF
  y1Lp _ x _ := x
  y1Hp _ _ _ := zeroF
  u2 _ _ _ _ := ⟨zeroF, zeroF⟩
  yA _ _ _ x _ := if fLe halfF (fAbs x) then 0x3A800000#32 else zeroF
  yB _ _ _ _ _ := zeroF

/-- What the memoryless low-pass gives is 0x3A800000 or +0.0. -/
theorem memorylessFilter_output2 (k : Coef2) (x : Nat → F32) (n : Nat) :
    output2 memorylessFilter .lp k x n = if fLe halfF (fAbs (x n)) then 0x3A800000#32 else zeroF := rfl

/-- The memoryless two-pole sections give 0x3A800000 or +0.0, and keep their state at zero. -/
theorem memorylessFilter_sec2 (ty : FilterType) (s : Pair) (x : F32) (k : Coef2) :
    (sec2 memorylessFilter ty s x k).s = ⟨zeroF, zeroF⟩ ∧
      ((fLe halfF (fAbs x) = true ∧ (sec2 memorylessFilter ty s x k).y = 0x3A800000#32) ∨
        (sec2 memorylessFilter ty s x k).y = zeroF) := by
  refine ⟨rfl, ?_⟩
  cases h : fLe halfF (fAbs x) <;> cases ty <;> simp [sec2, memorylessFilter, h]

/-- The memoryless one-pole sections pass the input or give +0.0, and keep their state at zero. -/
theorem memorylessFilter_sec1 (ty : FilterType) (s x : F32) (k : Coef1) :
    (sec1 memorylessFilter ty s x k).s = zeroF ∧
      ((sec1 memorylessFilter ty s x k).y = x ∨ (sec1 memorylessFilter ty s x k).y = zeroF) := by
  refine ⟨rfl, ?_⟩
  cases ty <;> simp [sec1, memorylessFilter]

/-- A zero is below 0.5. -/
theorem not_half_le_zero {x : F32} (h : isZeroF x = true) : fLe halfF (fAbs x) = false := by
  have hm : mag x = 0 := by simpa [isZeroF] using h
  have h0 : x.toNat % 2 ^ 31 = 0 := by
    have := x.isLt
    by_cases he : expField x = 0
    · rw [mag, if_pos he] at hm
      simp only [expField, fracField] at he hm
      omega
    · rw [mag, if_neg he] at hm
      have : 0 < 2 ^ (expField x - 1) := Nat.two_pow_pos _
      rcases Nat.mul_eq_zero.mp hm with h | h <;> omega
  simp only [fAbs, h0]
  decide

/-- R231 can be met. -/
theorem memorylessFilter_meets : FilterContract memorylessFilter := by
  have h0 : isFinite zeroF = true := by decide
  refine ⟨⟨fun _ _ _ _ => ⟨h0, h0, h0⟩, fun _ _ _ _ _ _ _ => ⟨h0, h0, h0, h0⟩, ?_, ?_⟩, ⟨?_, ?_⟩, ?_, ?_, ?_⟩
  · intro T fc ty s x _ _ _ hx
    obtain ⟨hs, hy | hy⟩ := memorylessFilter_sec1 ty s x (fd1 memorylessFilter T fc) <;> simp only [hs, hy]
    · exact ⟨by decide, isFinite_of_legalSample hx⟩
    · exact ⟨by decide, by decide⟩
  · intro T fc zeta ty s x _ _ _ _ _ _
    obtain ⟨hs, ⟨-, hy⟩ | hy⟩ := memorylessFilter_sec2 ty s x (fd2 memorylessFilter T fc zeta ty) <;>
      simp only [hs, hy] <;> exact ⟨by decide, by decide, by decide⟩
  · refine fun T fc ty _ _ => ⟨by cases ty <;> rfl, fun s x _ hx => ?_⟩
    obtain ⟨hs, hy | hy⟩ := memorylessFilter_sec1 ty s x (fd1 memorylessFilter T fc) <;> simp only [hs, hy]
    · exact ⟨by decide, hx⟩
    · exact ⟨by decide, by decide⟩
  · refine fun T fc zeta ty _ _ _ => ⟨by cases ty <;> rfl, fun s x _ _ hx => ?_⟩
    obtain ⟨hs, ⟨h, -⟩ | hy⟩ := memorylessFilter_sec2 ty s x (fd2 memorylessFilter T fc zeta ty)
    · rw [not_half_le_zero hx] at h; cases h
    · simp only [hs, hy]; exact ⟨by decide, by decide, by decide⟩
  · exact fun _ _ _ _ => ⟨(by decide : fLe (fAbs (fSub oneF oneF)) 0x3A83126F#32 = true),
      (by decide : fLe (fAbs zeroF) 0x3A83126F#32 = true)⟩
  · refine fun _ _ => ⟨0, fun n _ => ?_⟩
    rw [memorylessFilter_output2]
    split <;> decide
  · refine fun _ _ => ⟨mag 0x3A800000#32, 0, fun n => ⟨24 * n + 6, by omega, ?_⟩, fun n _ => ?_⟩
    · have h : tone (24 * n + 6) = oneF := by
        have h12 : 5 * (24 * n + 6) % 12 = 6 := by omega
        have h24 : 5 * (24 * n + 6) % 24 = 6 := by omega
        simp [tone, h12, h24, sineStep]
      rw [memorylessFilter_output2, h]
      decide
    · rw [cascade2, memorylessFilter_output2, memorylessFilter_output2]
      cases fLe halfF (fAbs (tone n)) <;> decide

end Sys2Proof.Machine

namespace Sys2Proof

/-- The machine's filter parts: any that meet R231. The constant has no body. -/
opaque Config.filterPartsRaw : Option { f : FilterParts // Machine.FilterContract f }

namespace Machine

/-- The machine's filter: the free parts; where the constant holds none, the memoryless ones, which meet R231 too. -/
def machineFilter : FilterParts := (Config.filterPartsRaw.getD ⟨memorylessFilter, memorylessFilter_meets⟩).val

/-- The machine's filter meets R231, whichever it is. -/
theorem machineFilter_meets : FilterContract machineFilter :=
  (Config.filterPartsRaw.getD ⟨memorylessFilter, memorylessFilter_meets⟩).property

end Machine

end Sys2Proof
end

