-- ==== Sys2Proof/Machine/Params.lean ====
section
/-! DEFINITION. The machine's parameters: the opaque constants of Config.lean brought to the properties the spec
requires of them (R104, R177, R282), the resonance curve (R287), and the filter of Contract.lean (R231). Each shaping below leaves a constant that has the property as it is, so
every instantiation the spec admits is admitted here, and one that lacks it is out (log entry 2). -/

namespace Sys2Proof.Machine

/-- binary32 π/2, the bound of `Fasin` (R104). -/
def halfPiF : F32 := 0x3FC90FDB#32

/-- An odd function of the numbers in a domain, bounded by b there and +0.0 at +0.0, shaped from f (R104): f decides
the results on the positive numbers of the domain; outside the domain f is free. -/
def oddBounded (f : F32 → F32) (inDomain : F32 → Bool) (b : F32) (x : F32) : F32 :=
  if inDomain x then
    let y := if mag x = 0 then zeroF else clampN (f (fAbs x)) (fNeg b) b zeroF
    if signBit x then fNeg y else y
  else f x

/-- `Fsin` (R104): total on the finite numbers, of magnitude at most 1. -/
def fsinOf (f : F32 → F32) : F32 → F32 := oddBounded f isFinite oneF

/-- `Fasin` (R104): total on [-1, 1], of magnitude at most π/2. -/
def fasinOf (f : F32 → F32) : F32 → F32 := oddBounded f (fun x => fLe (fAbs x) oneF) halfPiF

/-- `ALG_TABLE` (R176, R177): the all-carriers entry as required, no bit with src ≤ dst elsewhere, and bits 31:20
are 0 (R32). The kept bits are 4, 8, 9, 12, 13, 14 and the carriers 16 to 19. -/
def algTableOf (f : Fin 11 → Word) (allCarriers a : Fin 11) : Word :=
  if a = allCarriers then Config.allCarriersWord else f a &&& 0x000F7310#32

/-- `Fexp2` (R282): 1.0 at 0 and 2.0 at 1 exactly, finite and positive for |v| ≤ 20. -/
def fexp2Of (f : F32 → F32) (v : F32) : F32 :=
  if isZeroF v then oneF
  else if v = oneF then 0x40000000#32
  else if fLe (fAbs v) 0x41A00000#32 && !(isFinite (f v) && fLt zeroF (f v)) then oneF
  else f v

/-- The distance of y from the straight line through (0, 0.707) and (1, 0.01) at r, exact, in units of 2^-298. -/
def lineDistance (r y : F32) : Nat :=
  (sval y * 2 ^ 149 - (sval 0x3F34FDF4#32 * 2 ^ 149 + sval r * (sval 0x3C23D70A#32 - sval 0x3F34FDF4#32))).natAbs

/-- What R287 requires of `RES_CURVE`: 0.707 at 0, 0.01 at 1, and a curve that is not linear. A curve counts as non-linear
where some r in [0, 1] has a value that is no number, or one further than 2^-23 from the straight line between its ends:
the rounding of a linear formula stays within that (log entry 12). -/
def ResCurveContract (g : F32 → F32) : Prop :=
  (∀ r, isZeroF r = true → g r = 0x3F34FDF4#32) ∧ g oneF = 0x3C23D70A#32 ∧
  ∃ r, fLe zeroF r = true ∧ fLe r oneF = true ∧ (isFinite (g r) = false ∨ 2 ^ 275 < lineDistance r (g r))

/-- A curve that drops at once to 0.01. It is there only so that the machine's curve can be written down; no statement
rests on it. -/
def droppingCurve (r : F32) : F32 := if isZeroF r then 0x3F34FDF4#32 else 0x3C23D70A#32

/-- R287 can be met. -/
theorem droppingCurve_meets : ResCurveContract droppingCurve :=
  ⟨fun r h => by simp [droppingCurve, h], by decide, halfF, by decide, by decide, .inr (by decide +kernel)⟩

end Sys2Proof.Machine

namespace Sys2Proof

/-- The machine's resonance curve: any that meets R287. The constant has no body. -/
opaque Config.resCurveRaw : Option { g : F32 → F32 // Machine.ResCurveContract g }

end Sys2Proof

namespace Sys2Proof.Machine

/-- `RES_CURVE` (R287): the free curve; where the constant holds none, the dropping one, which meets R287 too. -/
def machineResCurve : F32 → F32 := (Config.resCurveRaw.getD ⟨droppingCurve, droppingCurve_meets⟩).val

/-- The machine's curve meets R287, whichever it is. -/
theorem machineResCurve_meets : ResCurveContract machineResCurve :=
  (Config.resCurveRaw.getD ⟨droppingCurve, droppingCurve_meets⟩).property

/-- The machine's parameters. -/
def machineConfig : Config where
  toFilterParts := machineFilter
  fsin := fsinOf Config.fsinRaw
  fasin := fasinOf Config.fasinRaw
  dcbR := Config.dcbRDefault
  extEps := Config.extEpsDefault
  algTable := algTableOf Config.algTableRaw Config.algAllCarriersDefault
  algAllCarriers := Config.algAllCarriersDefault
  modeTable := Config.modeTableDefault
  fexp2 := fexp2Of Config.fexp2Raw
  resCurve := machineResCurve

end Sys2Proof.Machine
end

