-- ==== Sys2Proof/Machine/State.lean ====
section
/-! DEFINITION. The block's state (spec/10_state.md), reset (R330), and the reasons a step can stop.
A float register holds its 32-bit encoding. The integer control registers hold their legal fields: a reserved bit reads
0 and a field stores only legal values (R22, R28, R38), so nothing else can be held. CMD holds nothing (R33). -/

namespace Sys2Proof.Machine

/-- SYN_CTRL's fields (R22). -/
structure SynCtrl where
  alg : Fin 11
  /-- Bit i is operator i's frequency mode: 0 ratio, 1 fixed Hz. -/
  fmode : BitVec 4
  ftype : Vector FoldType 4
  deriving DecidableEq, Repr

/-- One operator's eight registers (R24, R25). -/
structure Operator where
  coarse : F32
  fine : F32
  level : F32
  warp : F32
  fold : F32
  feedback : F32
  phase : F32
  prev : F32
  deriving DecidableEq, Repr

/-- The synth engine's registers, 0x000 to 0x0FF (R22 to R27). -/
structure Synth where
  ctrl : SynCtrl
  modDepth : F32
  pmDepth : F32
  gain : F32
  baseFreq : F32
  dt : F32
  extIn : F32
  out : F32
  ops : Vector Operator 4
  dcbX1 : F32
  dcbY1 : F32
  deriving DecidableEq, Repr

/-- The filter engine's registers, 0x100 to 0x13F (R28 to R31). -/
structure Filter where
  mode : Fin 12
  cutoff : F32
  damp : F32
  drive : F32
  dt : F32
  input : F32
  out : F32
  lastMode : Fin 12
  f1S : F32
  f2aS1 : F32
  f2aS2 : F32
  f2bS1 : F32
  f2bS2 : F32
  deriving DecidableEq, Repr

/-- STATUS's two bits (R34). -/
structure Status where
  errCmd : Bool
  errBus : Bool
  deriving DecidableEq, Repr

/-- The state of one block. `syn`, `flt`, `algRom` and `status` are the spec's registers. The last three fields are
the model's own: the host's pending accesses (R69), the bus's answer to the last one (R63, R65), and the index of the
next free values (log entries 1 and 3). -/
structure State where
  syn : Synth
  flt : Filter
  /-- `ALG_ROM[0..10]` (R32). -/
  algRom : Vector Word 11
  status : Status
  /-- What the host has issued and the block has not yet taken, oldest first (R69). -/
  bus : List HostEvent
  /-- The word the last access taken returned: `some` for a read, `none` for a write. -/
  answer : Option Word
  /-- The index the next step command's free NaN payloads are taken at. -/
  freeIdx : Nat
  deriving DecidableEq, Repr

/-- Nothing stops this machine: no arithmetic condition stops a command (R300), an illegal command and a bus error set
a STATUS bit and go on (R301, R302, R306). So there is no fault. -/
inductive Fault
  deriving DecidableEq, Repr

/-- The reasons an instruction can be without a meaning. -/
inductive Refusal
  /-- Raised by an arm of `exec` for an instruction that has no meaning yet; safe. No arm does. -/
  | notModelled (mnemonic : String)
  deriving DecidableEq, Repr

/-- An operator's reset values (R24, R25). -/
def Operator.reset : Operator where
  coarse := oneF
  fine := oneF
  level := zeroF
  warp := zeroF
  fold := zeroF
  feedback := zeroF
  phase := zeroF
  prev := zeroF

/-- The synth engine after reset (R22 to R27, R330). -/
def Synth.reset : Synth where
  ctrl := { alg := 0, fmode := 0#4, ftype := Vector.replicate 4 .symmetric }
  modDepth := zeroF
  pmDepth := zeroF
  gain := zeroF
  baseFreq := zeroF
  dt := defaultPeriod
  extIn := zeroF
  out := zeroF
  ops := Vector.replicate 4 Operator.reset
  dcbX1 := zeroF
  dcbY1 := zeroF

/-- The filter engine after reset (R28 to R31, R330). -/
def Filter.reset : Filter where
  mode := 0
  cutoff := 0x469C4000#32
  damp := 0x3F34FDF4#32
  drive := zeroF
  dt := defaultPeriod
  input := zeroF
  out := zeroF
  lastMode := 0
  f1S := zeroF
  f2aS1 := zeroF
  f2aS2 := zeroF
  f2bS1 := zeroF
  f2bS2 := zeroF

/-- The block right after hardware reset (R330): every register at its table's reset value, the ROM holding
`ALG_TABLE`, nothing pending on the bus. -/
def State.reset : State where
  syn := Synth.reset
  flt := Filter.reset
  algRom := Vector.ofFn machineConfig.algTable
  status := { errCmd := false, errBus := false }
  bus := []
  answer := none
  freeIdx := 0

end Sys2Proof.Machine
end

