-- ==== Sys2Proof/Machine/Operands.lean ====
section
/-! DEFINITION. The register file as the operand store (R84): the register map (spec/10_state.md section 7), each
register's kind (R20), its sanitize function (R21 to R31), and reading and storing one register. -/

namespace Sys2Proof.Machine

/-- Every register of the map (spec/10_state.md section 7), by name. -/
inductive Reg
  | synCtrl | synModDepth | synPmDepth | synGain | synBaseFreq | synDt | synExtIn | synOut
  | opCoarse (i : Fin 4) | opFine (i : Fin 4) | opLevel (i : Fin 4) | opWarp (i : Fin 4) | opFold (i : Fin 4)
  | opFeedback (i : Fin 4) | opPhase (i : Fin 4) | opPrev (i : Fin 4)
  | dcbX1 | dcbY1
  | fltCtrl | fltCutoff | fltDamp | fltDrive | fltDt | fltIn | fltOut | fltLastMode
  | f1S | f2aS1 | f2aS2 | f2bS1 | f2bS2
  | algRom (a : Fin 11)
  | cmd | status
  deriving DecidableEq, Repr

/-- The six kinds of register (R20); FLT_LAST_MODE is state the host cannot write (R30). -/
inductive Kind
  | parameter
  | state
  | readOnlyState
  | output
  | rom
  | command
  | status
  deriving DecidableEq, Repr

/-- A register's kind (R20, spec/10_state.md section 7). -/
def regKind : Reg → Kind
  | .synCtrl | .synModDepth | .synPmDepth | .synGain | .synBaseFreq | .synDt | .synExtIn => .parameter
  | .opCoarse _ | .opFine _ | .opLevel _ | .opWarp _ | .opFold _ | .opFeedback _ => .parameter
  | .fltCtrl | .fltCutoff | .fltDamp | .fltDrive | .fltDt | .fltIn => .parameter
  | .opPhase _ | .opPrev _ | .dcbX1 | .dcbY1 => .state
  | .f1S | .f2aS1 | .f2aS2 | .f2bS1 | .f2bS2 => .state
  | .fltLastMode => .readOnlyState
  | .synOut | .fltOut => .output
  | .algRom _ => .rom
  | .cmd => .command
  | .status => .status

/-- `OPB(i)` plus an offset (R24). -/
def opAddr (i : Fin 4) (offset : Nat) : Addr := BitVec.ofNat 9 (0x040 + 0x20 * i.val + offset)

/-- A register's byte address (spec/10_state.md section 7). -/
def regAddr : Reg → Addr
  | .synCtrl => 0x000#9
  | .synModDepth => 0x004#9
  | .synPmDepth => 0x008#9
  | .synGain => 0x00C#9
  | .synBaseFreq => 0x010#9
  | .synDt => 0x014#9
  | .synExtIn => 0x018#9
  | .synOut => 0x01C#9
  | .opCoarse i => opAddr i 0x00
  | .opFine i => opAddr i 0x04
  | .opLevel i => opAddr i 0x08
  | .opWarp i => opAddr i 0x0C
  | .opFold i => opAddr i 0x10
  | .opFeedback i => opAddr i 0x14
  | .opPhase i => opAddr i 0x18
  | .opPrev i => opAddr i 0x1C
  | .dcbX1 => 0x0C0#9
  | .dcbY1 => 0x0C4#9
  | .fltCtrl => 0x100#9
  | .fltCutoff => 0x104#9
  | .fltDamp => 0x108#9
  | .fltDrive => 0x10C#9
  | .fltDt => 0x110#9
  | .fltIn => 0x114#9
  | .fltOut => 0x118#9
  | .fltLastMode => 0x11C#9
  | .f1S => 0x120#9
  | .f2aS1 => 0x124#9
  | .f2aS2 => 0x128#9
  | .f2bS1 => 0x12C#9
  | .f2bS2 => 0x130#9
  | .algRom a => BitVec.ofNat 9 (0x180 + 4 * a.val)
  | .cmd => 0x1F8#9
  | .status => 0x1FC#9

/-- Operator i's registers, in address order (R24, R25). -/
def opRegs (i : Fin 4) : List Reg :=
  [.opCoarse i, .opFine i, .opLevel i, .opWarp i, .opFold i, .opFeedback i, .opPhase i, .opPrev i]

/-- Every register, in address order. -/
def allRegs : List Reg :=
  [.synCtrl, .synModDepth, .synPmDepth, .synGain, .synBaseFreq, .synDt, .synExtIn, .synOut]
    ++ opRegs 0 ++ opRegs 1 ++ opRegs 2 ++ opRegs 3
    ++ [.dcbX1, .dcbY1]
    ++ [.fltCtrl, .fltCutoff, .fltDamp, .fltDrive, .fltDt, .fltIn, .fltOut, .fltLastMode]
    ++ [.f1S, .f2aS1, .f2aS2, .f2bS1, .f2bS2]
    ++ (List.finRange 11).map Reg.algRom
    ++ [.cmd, .status]

/-- The register at an address; none at a reserved address (R38), and none at a misaligned one. -/
def regAt (a : Addr) : Option Reg := allRegs.find? (fun r => regAddr r == a)

/-! ## The control words -/

/-- A fold type's number (R155). -/
def foldTypeNum : FoldType → Nat
  | .symmetric => 0
  | .asymmetric => 1
  | .softClip => 2

/-- The fold type a two-bit field stores: min(v, 2) (R22, R155). -/
def foldTypeOf (v : Nat) : FoldType :=
  match v with
  | 0 => .symmetric
  | 1 => .asymmetric
  | _ => .softClip

/-- SYN_CTRL as the word a read returns (R22); bits 31:16 read 0. -/
def synCtrlWord (c : SynCtrl) : Word :=
  BitVec.ofNat 32 (c.alg.val + c.fmode.toNat * 2 ^ 4 + foldTypeNum c.ftype[0] * 2 ^ 8 + foldTypeNum c.ftype[1] * 2 ^ 10
    + foldTypeNum c.ftype[2] * 2 ^ 12 + foldTypeNum c.ftype[3] * 2 ^ 14)

/-- What SYN_CTRL stores of a written word (R22): ALG as min(v, 10), FMODE as written, each FTYPE as min(v, 2). -/
def synCtrlOf (v : Word) : SynCtrl where
  alg := ⟨min (v.toNat % 2 ^ 4) 10, by omega⟩
  fmode := BitVec.ofNat 4 (v.toNat / 2 ^ 4)
  ftype := Vector.ofFn (fun i : Fin 4 => foldTypeOf (v.toNat / 2 ^ (8 + 2 * i.val) % 2 ^ 2))

/-- A mode as the word FLT_CTRL and FLT_LAST_MODE read as (R28, R30); bits 31:4 read 0. -/
def modeWord (m : Fin 12) : Word := BitVec.ofNat 32 m.val

/-- What FLT_CTRL stores of a written word: MODE as min(v, 11) (R28, R253). -/
def modeOf (v : Word) : Fin 12 := ⟨min (v.toNat % 2 ^ 4) 11, by omega⟩

/-- STATUS as the word a read returns (R34); bits 31:2 read 0. -/
def statusWord (t : Status) : Word :=
  BitVec.ofNat 32 ((if t.errCmd then 1 else 0) + (if t.errBus then 2 else 0))

/-! ## Sanitizing -/

/-- A float parameter's range and the value a NaN stores: (lo, hi, n) (R23, R24, R29). -/
structure Range where
  lo : F32
  hi : F32
  nan : F32
  deriving DecidableEq, Repr

/-- [0, 1], the range of the levels, depths and amounts. -/
def unitRange : Range := ⟨zeroF, oneF, zeroF⟩

/-- [0, 2^20], the range of the frequencies. -/
def freqRange : Range := ⟨zeroF, 0x49800000#32, zeroF⟩

/-- [-2^20, 2^20], the range of the input samples. -/
def sampleRange : Range := ⟨0xC9800000#32, 0x49800000#32, zeroF⟩

/-- The range of each float parameter register (R23, R24, R29); none for the others. -/
def paramRange : Reg → Option Range
  | .synModDepth | .synPmDepth | .synGain | .synDt => some unitRange
  | .synBaseFreq => some freqRange
  | .synExtIn => some sampleRange
  | .opCoarse _ => some freqRange
  | .opFine _ => some ⟨zeroF, 0x41800000#32, zeroF⟩
  | .opLevel _ | .opWarp _ | .opFold _ | .opFeedback _ => some unitRange
  | .fltCutoff => some ⟨0x41A00000#32, 0x469C4000#32, 0x41A00000#32⟩
  | .fltDamp => some ⟨0x3C23D70A#32, 0x3F34FDF4#32, 0x3F34FDF4#32⟩
  | .fltDrive => some unitRange
  | .fltDt => some ⟨0x35800000#32, oneF, defaultPeriod⟩
  | .fltIn => some sampleRange
  | .synCtrl | .synOut | .opPhase _ | .opPrev _ | .dcbX1 | .dcbY1 | .fltCtrl | .fltOut | .fltLastMode
  | .f1S | .f2aS1 | .f2aS2 | .f2bS1 | .f2bS2 | .algRom _ | .cmd | .status => none

/-- The sanitize of a state register: a finite number is kept, anything else becomes 0.0 (R25, R26, R31). -/
def finiteOrZero (v : F32) : F32 := if isFinite v then v else zeroF

/-- `sanitize_NAME(v)` (R21): what a host write of v stores, as a later read returns it. -/
def sanitize (r : Reg) (v : Word) : Word :=
  match r with
  | .synCtrl => synCtrlWord (synCtrlOf v)
  | .fltCtrl => modeWord (modeOf v)
  | .opPhase _ => if isFinite v then wrap01 v else zeroF
  | .opPrev _ | .dcbX1 | .dcbY1 | .f1S | .f2aS1 | .f2aS2 | .f2bS1 | .f2bS2 => finiteOrZero v
  | _ =>
    match paramRange r with
    | some b => clampN v b.lo b.hi b.nan
    | none => v

/-! ## Reading and storing a register -/

/-- A register's value as a read returns it (R63); CMD reads 0 (R33). -/
def readReg (s : State) : Reg → Word
  | .synCtrl => synCtrlWord s.syn.ctrl
  | .synModDepth => s.syn.modDepth
  | .synPmDepth => s.syn.pmDepth
  | .synGain => s.syn.gain
  | .synBaseFreq => s.syn.baseFreq
  | .synDt => s.syn.dt
  | .synExtIn => s.syn.extIn
  | .synOut => s.syn.out
  | .opCoarse i => s.syn.ops[i].coarse
  | .opFine i => s.syn.ops[i].fine
  | .opLevel i => s.syn.ops[i].level
  | .opWarp i => s.syn.ops[i].warp
  | .opFold i => s.syn.ops[i].fold
  | .opFeedback i => s.syn.ops[i].feedback
  | .opPhase i => s.syn.ops[i].phase
  | .opPrev i => s.syn.ops[i].prev
  | .dcbX1 => s.syn.dcbX1
  | .dcbY1 => s.syn.dcbY1
  | .fltCtrl => modeWord s.flt.mode
  | .fltCutoff => s.flt.cutoff
  | .fltDamp => s.flt.damp
  | .fltDrive => s.flt.drive
  | .fltDt => s.flt.dt
  | .fltIn => s.flt.input
  | .fltOut => s.flt.out
  | .fltLastMode => modeWord s.flt.lastMode
  | .f1S => s.flt.f1S
  | .f2aS1 => s.flt.f2aS1
  | .f2aS2 => s.flt.f2aS2
  | .f2bS1 => s.flt.f2bS1
  | .f2bS2 => s.flt.f2bS2
  | .algRom a => s.algRom[a]
  | .cmd => 0x00000000#32
  | .status => statusWord s.status

/-- Operator i changed by f. -/
def setOp (s : State) (i : Fin 4) (f : Operator → Operator) : State :=
  { s with syn := { s.syn with ops := s.syn.ops.set i (f s.syn.ops[i]) } }

/-- A word stored in a parameter or state register as it is; the registers the host cannot write keep their value
(R64). -/
def setReg (s : State) (r : Reg) (v : Word) : State :=
  match r with
  | .synCtrl => { s with syn := { s.syn with ctrl := synCtrlOf v } }
  | .synModDepth => { s with syn := { s.syn with modDepth := v } }
  | .synPmDepth => { s with syn := { s.syn with pmDepth := v } }
  | .synGain => { s with syn := { s.syn with gain := v } }
  | .synBaseFreq => { s with syn := { s.syn with baseFreq := v } }
  | .synDt => { s with syn := { s.syn with dt := v } }
  | .synExtIn => { s with syn := { s.syn with extIn := v } }
  | .opCoarse i => setOp s i (fun o => { o with coarse := v })
  | .opFine i => setOp s i (fun o => { o with fine := v })
  | .opLevel i => setOp s i (fun o => { o with level := v })
  | .opWarp i => setOp s i (fun o => { o with warp := v })
  | .opFold i => setOp s i (fun o => { o with fold := v })
  | .opFeedback i => setOp s i (fun o => { o with feedback := v })
  | .opPhase i => setOp s i (fun o => { o with phase := v })
  | .opPrev i => setOp s i (fun o => { o with prev := v })
  | .dcbX1 => { s with syn := { s.syn with dcbX1 := v } }
  | .dcbY1 => { s with syn := { s.syn with dcbY1 := v } }
  | .fltCtrl => { s with flt := { s.flt with mode := modeOf v } }
  | .fltCutoff => { s with flt := { s.flt with cutoff := v } }
  | .fltDamp => { s with flt := { s.flt with damp := v } }
  | .fltDrive => { s with flt := { s.flt with drive := v } }
  | .fltDt => { s with flt := { s.flt with dt := v } }
  | .fltIn => { s with flt := { s.flt with input := v } }
  | .f1S => { s with flt := { s.flt with f1S := v } }
  | .f2aS1 => { s with flt := { s.flt with f2aS1 := v } }
  | .f2aS2 => { s with flt := { s.flt with f2aS2 := v } }
  | .f2bS1 => { s with flt := { s.flt with f2bS1 := v } }
  | .f2bS2 => { s with flt := { s.flt with f2bS2 := v } }
  | .synOut | .fltOut | .fltLastMode | .algRom _ | .cmd | .status => s

/-! ## Free NaN payloads -/

/-- The free NaN of an index and a register: an arbitrary NaN encoding (R101: the payload is `any value`). -/
def freeNaN (k : Nat) (r : Reg) : Word :=
  let x := Config.freeNaNRaw k (regAddr r).toNat
  packF (signBit x) (0x7F800000 + max 1 (fracField x))

/-- A computed value as it is stored in register r: a NaN takes a free payload, every other value is stored as it is
(R101). -/
def sealNaN (k : Nat) (r : Reg) (x : F32) : Word := if isNaN x then freeNaN k r else x

end Sys2Proof.Machine
end

