-- ==== Sys2Proof/Machine/Flags.lean ====
section
/-! DEFINITION. The block's only flags: the two sticky STATUS bits (R34, R36). No command computes one, and nothing
else sets one (R303). -/

namespace Sys2Proof.Machine

/-- STATUS with ERR_CMD set (R301); it stays 1 if it was 1 (R307). -/
def Status.setErrCmd (t : Status) : Status := { t with errCmd := true }

/-- STATUS with ERR_BUS set (R302); it stays 1 if it was 1 (R307). -/
def Status.setErrBus (t : Status) : Status := { t with errBus := true }

/-- A host write to STATUS: write 1 to clear, a written 0 leaves its bit, reserved bits are ignored (R34, R64). -/
def Status.writeOneToClear (t : Status) (v : Word) : Status where
  errCmd := t.errCmd && !v.getLsbD 0
  errBus := t.errBus && !v.getLsbD 1

end Sys2Proof.Machine
end

