-- ==== Sys2Proof/Machine/Ops.lean ====
section
/-! DEFINITION. The named operations the bus and the commands share: raising an error (the block's whole exception
mechanism, R300 to R307), the bus read and the host's register write (R63, R64), and the host's byte view (R68). -/

namespace Sys2Proof.Machine

/-- The two error conditions of the block (R303). -/
inductive Cause
  | illegalCommand
  | busError
  deriving DecidableEq, Repr

/-- TAKING AN EXCEPTION: `raise IllegalCommand` and `raise BusError` (R301, R302). The sticky bit of the cause is set
and nothing else changes: no state is saved, no mode changes, no control is transferred (R306), and there is nothing
to return from (R307). -/
def raiseError (c : Cause) (s : State) : State :=
  match c with
  | .illegalCommand => { s with status := s.status.setErrCmd }
  | .busError => { s with status := s.status.setErrBus }

/-- `BusRead(A)` for an aligned A (R63): the register's value; CMD and the reserved addresses read 0 (R33, R38). -/
def busRead (s : State) (a : Addr) : Word :=
  match regAt a with
  | some r => readReg s r
  | none => 0x00000000#32

/-- What a host write stores in the register file (R64), CMD apart: a parameter or state register takes the sanitized
value, STATUS is write-1-to-clear, and every other register ignores the write. -/
def hostWriteReg (s : State) (r : Reg) (v : Word) : State :=
  match regKind r with
  | .parameter | .state => setReg s r (sanitize r v)
  | .status => { s with status := s.status.writeOneToClear v }
  | .readOnlyState | .output | .rom | .command => s

/-- The byte a host sees at a byte address of the register space: byte k of the word there (R68). -/
def hostByte (s : State) (a : Addr) : Byte := byteOf (busRead s (a &&& 0x1FC#9)) (a.toNat % 4)

/-- The host address of a register address (R60). -/
def hostAddress (a : Addr) : Nat := Config.blockBase + a.toNat

/-- The register address a host address reaches, if it lies in the block's 512 bytes (R60). -/
def regAddressIn (base h : Nat) : Option Addr :=
  if base ≤ h ∧ h < base + 512 then some (BitVec.ofNat 9 (h - base)) else none

end Sys2Proof.Machine
end

