-- ==== Sys2Proof/Machine/Control.lean ====
section
/-! DEFINITION. The command that does nothing (spec/30_encoding.md section 3). -/

namespace Sys2Proof.Machine

/-- NOP (R87). -/
def execNop (s : State) : Host.Outcome State Fault Refusal := .next s

end Sys2Proof.Machine
end

