-- ==== Sys2Proof/Machine/Filter.lean ====
section
/-! DEFINITION. The filter engine: drive, mode change, the paths and the filter commands (spec/46_filter_engine.md). P is the filter's registers as read at the command's start
(R11). -/

namespace Sys2Proof.Machine

/-- `drive_stage(x, drive)` (R254). -/
def driveStage (x drive : F32) : F32 :=
  if fLt zeroF drive then softClip (fMul x (fAdd oneF (fMul nineF drive))) else x

/-- All five section state registers zeroed (R230, R256, R259). -/
def zeroSections (P : Filter) : Filter :=
  { P with f1S := zeroF, f2aS1 := zeroF, f2aS2 := zeroF, f2bS1 := zeroF, f2bS2 := zeroF }

/-- The mode-change reset (R256): only when MODE differs from FLT_LAST_MODE, which then follows it. -/
def modeChange (P : Filter) : Filter :=
  if P.mode = P.lastMode then P else { zeroSections P with lastMode := P.mode }

/-- Path ONE: the one-pole section alone (R250, R258). -/
def runOne (c : Config) (k : Nat) (ty : FilterType) (x : F32) (P : Filter) : Filter :=
  let r := sec1 c.toFilterParts ty P.f1S x (fd1 c.toFilterParts P.dt P.cutoff)
  { P with
    f1S := sealNaN k .f1S (flushDenormal r.s)
    out := sealNaN k .fltOut r.y }

/-- Path TWO: two-pole section A alone (R250, R258). -/
def runTwo (c : Config) (k : Nat) (ty : FilterType) (x : F32) (P : Filter) : Filter :=
  let r := sec2 c.toFilterParts ty ⟨P.f2aS1, P.f2aS2⟩ x (fd2 c.toFilterParts P.dt P.cutoff P.damp ty)
  { P with
    f2aS1 := sealNaN k .f2aS1 (flushDenormal r.s.s1)
    f2aS2 := sealNaN k .f2aS2 (flushDenormal r.s.s2)
    out := sealNaN k .fltOut r.y }

/-- A value where it is finite, else a free one, which is finite too. -/
def finiteOr (v free : F32) : F32 := if isFinite v then v else if isFinite free then free else zeroF

/-- Section B's step, on section A's output x. In [-2^20, 2^20] it is `SEC2`. R231 asks nothing of `SEC2` at an x beyond,
and R261 says the output is finite all the same: there each result that `SEC2` gives finite stands, and a finite free
value stands for any other (log entry 20, DEDUCED). -/
def sectionB (f : FilterParts) (ty : FilterType) (s : Pair) (x : F32) (k : Coef2) : Sec2Result :=
  let r := sec2 f ty s x k
  if legalSample x then r
  else
    let free := Config.u2BeyondRaw s.s1 s.s2 x k
    { s := ⟨finiteOr r.s.s1 free.s1, finiteOr r.s.s2 free.s2⟩
      y := finiteOr r.y (Config.y2BeyondRaw ty s.s1 s.s2 x k) }

/-- Path CAS: section A, then section B on A's output, with one coefficient set (R251, R258, R261). -/
def runCas (c : Config) (k : Nat) (ty : FilterType) (x : F32) (P : Filter) : Filter :=
  let coef := fd2 c.toFilterParts P.dt P.cutoff P.damp ty
  let a := sec2 c.toFilterParts ty ⟨P.f2aS1, P.f2aS2⟩ x coef
  let b := sectionB c.toFilterParts ty ⟨P.f2bS1, P.f2bS2⟩ a.y coef
  { P with
    f2aS1 := sealNaN k .f2aS1 (flushDenormal a.s.s1)
    f2aS2 := sealNaN k .f2aS2 (flushDenormal a.s.s2)
    f2bS1 := sealNaN k .f2bS1 (flushDenormal b.s.s1)
    f2bS2 := sealNaN k .f2bS2 (flushDenormal b.s.s2)
    out := sealNaN k .fltOut b.y }

/-- The body of `FLT_STEP` (R258) on the filter's registers; k is the index of the free NaN payloads (R101). -/
def fltCompute (c : Config) (k : Nat) (P : Filter) : Filter :=
  let pt := c.modeTable P.mode
  let x := driveStage P.input P.drive
  match pt.1 with
  | .one => runOne c k pt.2 x (modeChange P)
  | .two => runTwo c k pt.2 x (modeChange P)
  | .cas => runCas c k pt.2 x (modeChange P)

/-- `FLT_STEP` over the parameters c (R258). -/
def fltStep (c : Config) (s : State) : State :=
  { s with
    flt := fltCompute c s.freeIdx s.flt
    freeIdx := s.freeIdx + 1 }

/-- FLT_STEP: one host sample of the filter engine (R258). -/
def execFltStep (s : State) : Host.Outcome State Fault Refusal := .next (fltStep machineConfig s)

/-- FLT_RESET (R259). -/
def execFltReset (s : State) : Host.Outcome State Fault Refusal := .next { s with flt := zeroSections s.flt }

end Sys2Proof.Machine
end

