-- ==== Sys2Proof/Machine/Waveform.lean ====
section
/-! DEFINITION. Waveforms, PolyBLEP and the warp morph (spec/41_waveform_polyblep.md). Every function is pure; p is a
phase, dt the unmodulated phase increment of one oversampled sample (R141). -/

namespace Sys2Proof.Machine

/-- 2.0 -/
def twoF : F32 := 0x40000000#32

/-- 4.0 -/
def fourF : F32 := 0x40800000#32

/-- 0.25 -/
def quarterF : F32 := 0x3E800000#32

/-- 0.75 -/
def threeQuartersF : F32 := 0x3F400000#32

/-- binary32 2π (R130). -/
def twoPiF : F32 := 0x40C90FDB#32

/-- binary32 1/3 (R138). -/
def thirdF : F32 := 0x3EAAAAAB#32

/-- binary32 2/3 (R138). -/
def twoThirdsF : F32 := 0x3F2AAAAB#32

/-- `sine(p)` (R130). -/
def sineWave (c : Config) (p : F32) : F32 := c.fsin (fMul twoPiF p)

/-- `tri(p)` (R131). -/
def triWave (p : F32) : F32 :=
  if fLt p quarterF then fMul fourF p
  else if fLt p threeQuartersF then fSub twoF (fMul fourF p)
  else fSub (fMul fourF p) fourF

/-- `saw(p)`, uncorrected (R132). -/
def sawWave (p : F32) : F32 := fSub (fMul twoF p) oneF

/-- `pulse(p)`, uncorrected (R133). -/
def pulseWave (p : F32) : F32 := if fLt p halfF then oneF else fNeg oneF

/-- `polyblep(t, dt)` (R134). -/
def polyblep (t dt : F32) : F32 :=
  if fLt t dt then
    let x := fDiv t dt
    fSub (fSub (fAdd x x) (fMul x x)) oneF
  else if fLt (fSub oneF dt) t then
    let x := fDiv (fSub t oneF) dt
    fAdd (fAdd (fAdd (fMul x x) x) x) oneF
  else zeroF

/-- `saw_blep(p, dt)` (R136). -/
def sawBlep (p dt : F32) : F32 := fSub (sawWave p) (polyblep p dt)

/-- `pulse_blep(p, dt)` (R137). -/
def pulseBlep (p dt : F32) : F32 :=
  fSub (fAdd (pulseWave p) (polyblep p dt)) (polyblep (wrap01 (fAdd p halfF)) dt)

/-- `xfade(a, u, v)` (R138). -/
def xfade (a u v : F32) : F32 := fAdd (fMul (fSub oneF a) u) (fMul a v)

/-- `wave_warp(p, w, dt)` (R138), by the arithmetic of R100. R139 gives a = 1.0 just below TWO_THIRDS, with the limit in
place of w: at the largest w below it, 0x3F2AAAAA, the arithmetic gives a = 0x3F7FFFFE, so the segment ends next to
saw_blep and not at it (log entry 5, DEDUCED). -/
def waveWarp (c : Config) (p w dt : F32) : F32 :=
  if fLt w thirdF then xfade (fMul w threeF) (sineWave c p) (triWave p)
  else if fLt w twoThirdsF then xfade (fMul (fSub w thirdF) threeF) (triWave p) (sawBlep p dt)
  else xfade (fMul (fSub w twoThirdsF) threeF) (sawBlep p dt) (pulseBlep p dt)

end Sys2Proof.Machine
end

