-- ==== Sys2Proof/Machine/Fold.lean ====
section
/-! DEFINITION. The wave folder (spec/42_wave_folder.md). -/

namespace Sys2Proof.Machine

/-- `fold0(d)`, the symmetric fold (R151). -/
def fold0 (d : F32) : F32 :=
  let t := fAdd d oneF
  let u := fSub t (fMul fourF (fFloor (fDiv t fourF)))
  fSub oneF (fAbs (fSub u twoF))

/-- `wave_fold(x, amount, type)` (R150, R152, R153). -/
def waveFold (x amount : F32) (ty : FoldType) : F32 :=
  if fLe amount zeroF then x
  else
    let d := fMul x (fAdd oneF (fMul fourF amount))
    match ty with
    | .symmetric => fold0 d
    | .asymmetric => if fLe zeroF d then fold0 d else softClip d
    | .softClip => softClip d

end Sys2Proof.Machine
end

