-- ==== Sys2Proof/Machine/Synth.lean ====
section
/-! DEFINITION. The synth engine: the operator pass (spec/43_operator_routing.md), the decimator, the DC blocker,
external PM and the synth commands (spec/44_fm_engine.md). P is the synth's registers as read at the command's start
(R11); a command writes no parameter register, so every parameter is read from P. -/

namespace Sys2Proof.Machine

/-- An operator's two state registers (R25). -/
structure Voice where
  phase : F32
  prev : F32
  deriving DecidableEq, Repr

/-- A pass in progress: the operators' state registers and the outputs of the operators already evaluated. -/
structure Pass where
  voices : Vector Voice 4
  out : Vector F32 4
  deriving DecidableEq, Repr

/-- The order in which a pass evaluates the operators (R167). -/
def evalOrder : List (Fin 4) := [3, 2, 1, 0]

/-- `freq(i)` (R161). -/
def opFreq (P : Synth) (i : Fin 4) : F32 :=
  if P.ctrl.fmode.getLsbD i.val then fMul P.ops[i].coarse P.ops[i].fine
  else fMul (fMul P.baseFreq P.ops[i].coarse) P.ops[i].fine

/-- `T_os` (R190). -/
def oversampledPeriod (P : Synth) : F32 := fMul P.dt halfF

/-- `inc(i)` (R163). -/
def phaseInc (P : Synth) (i : Fin 4) : F32 := fMul (opFreq P i) (oversampledPeriod P)

/-- The accumulator advance (R164), by the arithmetic of R100 and R106. R166's inference that an increment of exactly 1.0
leaves the phase unchanged fails where the sum rounds: from 0x3F7FFFFF the phase becomes 0 (log entry 5). -/
def advancePhase (P : Synth) (i : Fin 4) (phase : F32) : F32 := wrap01 (fAdd phase (phaseInc P i))

/-- The gathered modulation of operator i (R168, R169). -/
def gatherMod (P : Synth) (e : Word) (out : Vector F32 4) (i : Fin 4) : F32 :=
  evalOrder.foldl
    (fun g s => if i < s ∧ modBit e s i then fAdd g (fMul (fMul out[s] P.ops[s].level) P.modDepth) else g) zeroF

/-- The self-feedback of operator i, from its output of the previous pass (R171). -/
def selfFeedback (P : Synth) (i : Fin 4) (prev : F32) : F32 := softClip (fMul prev P.ops[i].feedback)

/-- Operator i's output for a phase, already advanced, and a total modulation (R173 to R175). -/
def opOutput (c : Config) (P : Synth) (i : Fin 4) (phase m : F32) : F32 :=
  waveFold (waveWarp c (wrap01 (fAdd phase m)) P.ops[i].warp (phaseInc P i)) P.ops[i].fold P.ctrl.ftype[i]

/-- One operator of a pass (R180): advance, gather, feed back, generate, fold, store. -/
def evalOp (c : Config) (P : Synth) (e : Word) (st : Pass) (i : Fin 4) : Pass :=
  let phase := advancePhase P i st.voices[i].phase
  let m := fAdd (gatherMod P e st.out i) (selfFeedback P i st.voices[i].prev)
  let y := opOutput c P i phase m
  { voices := st.voices.set i { phase := phase, prev := y }, out := st.out.set i y }

/-- The carrier mix (R179). -/
def carrierMix (P : Synth) (e : Word) (out : Vector F32 4) : F32 :=
  evalOrder.foldl (fun mix i => if carrierBit e i then fAdd mix (fMul out[i] P.ops[i].level) else mix) zeroF

/-- The four operators of a pass, in order (R167). No output of an operator not yet evaluated is read (R168), so the
outputs start at any value. -/
def runPass (c : Config) (P : Synth) (e : Word) (voices : Vector Voice 4) : Pass :=
  evalOrder.foldl (evalOp c P e) { voices := voices, out := Vector.replicate 4 zeroF }

/-- `operator_pass` (R180): the new state registers and the mix. -/
def operatorPass (c : Config) (P : Synth) (e : Word) (voices : Vector Voice 4) : Vector Voice 4 × F32 :=
  let st := runPass c P e voices
  (st.voices, carrierMix P e st.out)

/-- The DC blocker's output before the flush (R193). -/
def dcBlock (c : Config) (x x1 y1 : F32) : F32 := fAdd (fSub x x1) (fMul c.dcbR y1)

/-- Does external PM apply (R196)? -/
def extPmApplies (c : Config) (P : Synth) : Bool := fLt zeroF P.pmDepth && fLt c.extEps (fAbs P.extIn)

/-- External PM (R196, R197). -/
def extPm (c : Config) (P : Synth) (y : F32) : F32 :=
  if extPmApplies c P then c.fsin (fAdd (c.fasin (clamp y (fNeg oneF) oneF)) (fMul P.extIn P.pmDepth)) else y

/-- The output gain (R198). A gain of 0 gives a zero whatever y is (R199): where the product would be a NaN, for a y that
overflowed or came from an overflow, the zero has a free sign (log entry 21, DEDUCED). -/
def outputGain (k : Nat) (y gain : F32) : F32 :=
  if isZeroF gain && !isFinite y then (if Config.silentSignRaw k then negZeroF else zeroF) else fMul y gain

/-- The operators' state registers as a command reads them (R11). -/
def opVoices (P : Synth) : Vector Voice 4 := Vector.ofFn (fun i : Fin 4 => { phase := P.ops[i].phase, prev := P.ops[i].prev })

/-- What one SYN_STEP computes: the registers it writes (R200). -/
structure SynResult where
  voices : Vector Voice 4
  dcbX1 : F32
  dcbY1 : F32
  out : F32
  deriving DecidableEq, Repr

/-- The body of `SYN_STEP` (R200), on the synth's registers and the algorithm entry `ALG_ROM[P.ALG]`; k is the index of
the free values. -/
def synCompute (c : Config) (k : Nat) (P : Synth) (e : Word) : SynResult :=
  let pass0 := operatorPass c P e (opVoices P)
  let pass1 := operatorPass c P e pass0.1
  let raw := fMul (fAdd pass0.2 pass1.2) halfF
  let y := flushDenormal (dcBlock c raw P.dcbX1 P.dcbY1)
  { voices := pass1.1
    dcbX1 := flushDenormal raw
    dcbY1 := y
    out := outputGain k (extPm c P y) P.gain }

/-- The computed registers stored (R200); k is the index of the free NaN payloads (R101). -/
def synStore (P : Synth) (k : Nat) (r : SynResult) : Synth :=
  { P with
    ops := Vector.ofFn (fun i : Fin 4 =>
      { P.ops[i] with
        phase := sealNaN k (.opPhase i) r.voices[i].phase
        prev := sealNaN k (.opPrev i) r.voices[i].prev })
    dcbX1 := sealNaN k .dcbX1 r.dcbX1
    dcbY1 := sealNaN k .dcbY1 r.dcbY1
    out := sealNaN k .synOut r.out }

/-- `SYN_STEP` over the parameters c (R200). -/
def synStep (c : Config) (s : State) : State :=
  { s with
    syn := synStore s.syn s.freeIdx (synCompute c s.freeIdx s.syn s.algRom[s.syn.ctrl.alg])
    freeIdx := s.freeIdx + 1 }

/-- Every operator's phase and previous output zeroed (R201). -/
def zeroOps (P : Synth) : Synth :=
  { P with ops := Vector.ofFn (fun i : Fin 4 => { P.ops[i] with phase := zeroF, prev := zeroF }) }

/-- The DC blocker's state zeroed (R202). -/
def zeroDcb (P : Synth) : Synth := { P with dcbX1 := zeroF, dcbY1 := zeroF }

/-- SYN_STEP: one host sample of the synth engine (R200). -/
def execSynStep (s : State) : Host.Outcome State Fault Refusal := .next (synStep machineConfig s)

/-- SYN_RESET_OPS (R201). -/
def execSynResetOps (s : State) : Host.Outcome State Fault Refusal := .next { s with syn := zeroOps s.syn }

/-- SYN_RESET_DCB (R202). -/
def execSynResetDcb (s : State) : Host.Outcome State Fault Refusal := .next { s with syn := zeroDcb s.syn }

/-- SYN_RESET: the body of R201, then the body of R202 (R203). -/
def execSynReset (s : State) : Host.Outcome State Fault Refusal := .next { s with syn := zeroDcb (zeroOps s.syn) }

end Sys2Proof.Machine
end

