-- ==== Sys2Proof/Machine/Dispatch.lean ====
section
/-! DEFINITION. The commands' dispatch (R83): one arm per command. -/

namespace Sys2Proof.Machine

def exec (i : Instr) (s : State) : Host.Outcome State Fault Refusal :=
  match i with
  | .nop => Sys2Proof.Machine.execNop s
  | .synStep => Sys2Proof.Machine.execSynStep s
  | .synResetOps => Sys2Proof.Machine.execSynResetOps s
  | .synResetDcb => Sys2Proof.Machine.execSynResetDcb s
  | .synReset => Sys2Proof.Machine.execSynReset s
  | .fltStep => Sys2Proof.Machine.execFltStep s
  | .fltReset => Sys2Proof.Machine.execFltReset s

end Sys2Proof.Machine
end

