-- ==== Sys2Proof/Machine/Bus.lean ====
section
/-! DEFINITION. One host access (spec/20_memory.md): the legality check (R62, R65), the aligned read and write (R63,
R64), the CMD write (R83), and the reset input (R330). -/

namespace Sys2Proof.Machine

/-- `execute_command(v)` (R83): a legal word runs its command, any other raises IllegalCommand (R82, R301). -/
def executeCommand (v : Word) (s : State) : Host.Outcome State Fault Refusal :=
  match decode v with
  | .legal i => exec i s
  | .illegal _ => .next (raiseError .illegalCommand s)

/-- `BusWrite(A, v)` for an aligned A (R64); a reserved address ignores it (R38). -/
def busWrite (a : Addr) (v : Word) (s : State) : Host.Outcome State Fault Refusal :=
  match regAt a with
  | some .cmd => executeCommand v s
  | some r => .next (hostWriteReg s r v)
  | none => .next s

/-- A hardware reset (R330). What the host has still to issue, and the index of the free values, are not the block's
registers and stay. -/
def hardwareReset (s : State) : State := { State.reset with bus := s.bus, freeIdx := s.freeIdx }

/-- One host event. The legality of an access is decided first, from its width and alignment (R305): a bus error
(R65) sets ERR_BUS, reads 0, writes nothing and runs nothing. -/
def perform (e : HostEvent) (s : State) : Host.Outcome State Fault Refusal :=
  match e with
  | .read w a =>
    if accessWellFormed w a then .next { s with answer := some (busRead s a) }
    else .next { raiseError .busError s with answer := some 0x00000000#32 }
  | .write w a v =>
    if accessWellFormed w a then busWrite a v { s with answer := none }
    else .next { raiseError .busError s with answer := none }
  | .reset => .next (hardwareReset s)

end Sys2Proof.Machine
end

