-- ==== Sys2Proof/Machine/Step.lean ====
section
/-! DEFINITION. One step of the block: it takes the host's oldest pending access and performs it whole (R66, R69). The
block fetches nothing (R73); its "next instruction" is the command of the oldest pending CMD write. -/

namespace Sys2Proof.Machine

/-- One step. With nothing pending the block holds its registers and does nothing (R316). -/
def step (s : State) : Host.Outcome State Fault Refusal :=
  match s.bus with
  | [] => .next s
  | e :: rest => perform e { s with bus := rest }

/-- s with an aligned 32-bit write of the command word w to CMD issued as the very next access (log entry 1). -/
def State.withFetchWord (s : State) (_nbits w : Nat) : State :=
  { s with bus := .write .w32 (regAddr .cmd) (BitVec.ofNat 32 w) :: s.bus }

end Sys2Proof.Machine
end

