-- ==== Sys2Proof/Machine/HostSide.lean ====
section
/-! DEFINITION. The host's side of the contract (spec/47_host_contract.md): the per-sample protocol, the pitch
conversions and the resonance mapping. No command of the block runs one of these (D40). -/

namespace Sys2Proof.Machine

/-- The two engines of the block (R3). -/
inductive Engine
  | synth
  | filter
  deriving DecidableEq, Repr

/-- An engine's input register (R280). -/
def inputReg : Engine → Reg
  | .synth => .synExtIn
  | .filter => .fltIn

/-- An engine's output register (R280). -/
def outputReg : Engine → Reg
  | .synth => .synOut
  | .filter => .fltOut

/-- An engine's step command (R280). -/
def stepCommand : Engine → Instr
  | .synth => .synStep
  | .filter => .fltStep

/-- A host's aligned write of a register. -/
def hostWrite (r : Reg) (v : Word) : HostEvent := .write .w32 (regAddr r) v

/-- A host's aligned read of a register. -/
def hostRead (r : Reg) : HostEvent := .read .w32 (regAddr r)

/-- A host's write of a command to CMD. -/
def hostCommand (i : Instr) : HostEvent := hostWrite .cmd (encode i)

/-- One host sample of an engine (R280): the changed parameters, the input, the step command, the output read. -/
def sampleProtocol (e : Engine) (changed : List (Reg × Word)) (input : F32) : List HostEvent :=
  changed.map (fun p => hostWrite p.1 p.2)
    ++ [hostWrite (inputReg e) input, hostCommand (stepCommand e), hostRead (outputReg e)]

/-- `voct_to_mult(v)` (R283). -/
def voctToMult (c : Config) (v : F32) : F32 := c.fexp2 v

/-- `F0_SYN` (R284). -/
def f0Syn : F32 := 0x4382D013#32

/-- `F0_FLT` (R284). -/
def f0Flt : F32 := 0x4382D0A4#32

/-- `voct_to_freq(v)` for a reference frequency f0 (R284). -/
def voctToFreq (c : Config) (f0 v : F32) : F32 := fMul f0 (c.fexp2 v)

/-- An integer converted to binary32 (R285). -/
def fOfInt (n : Int) : F32 := fOfRat (decide (n < 0)) n.natAbs 1

/-- `midi_note_to_freq(n)` (R285). -/
def midiNoteToFreq (c : Config) (n : Int) : F32 :=
  fMul 0x43DC0000#32 (c.fexp2 (fDiv (fSub (fOfInt n) (fOfInt 69)) (fOfInt 12)))

/-- The fine multiplier of a host that follows the usual cents convention (R286). -/
def fineOfCents (c : Config) (cents : F32) : F32 := c.fexp2 (fDiv cents (fOfInt 1200))

/-- The damping a host writes for a resonance r and a CV contribution (R287): the curve, the contribution added, the
sum clamped to [0.01, 0.707]. The contribution's form is unstated, so it is an argument. -/
def hostDamping (c : Config) (r cv : F32) : F32 := clamp (fAdd (c.resCurve r) cv) 0x3C23D70A#32 0x3F34FDF4#32

/-- The cutoff a host derives from a voltage (R288). -/
def hostCutoff (c : Config) (v : F32) : F32 := clamp (voctToFreq c f0Flt v) 0x41A00000#32 0x469C4000#32

/-- The base frequency a host derives from a pitch input (R289). -/
def hostBaseFreq (c : Config) (v : F32) : F32 := voctToFreq c f0Syn v

end Sys2Proof.Machine
end

