-- ==== Sys2Proof/Machine/Program.lean ====
section
/-! DEFINITION. The host assembly of spec/30_encoding.md section 4: lines, pseudo-instructions, and the transaction
list a program is encoded as (R88, R89, R90). -/

namespace Sys2Proof.Machine

/-- A VALUE: a decimal literal ±num/den, which means the binary32 value nearest to it, or a raw word (R88). -/
inductive Value
  | decimal (neg : Bool) (num den : Nat)
  | raw (w : Word)
  deriving DecidableEq, Repr

/-- The word of a VALUE (R88). -/
def valueWord : Value → Word
  | .decimal neg num den => fOfRat neg num den
  | .raw w => w

/-- Where a line's access goes: a register by name, or a raw address (R88). -/
inductive Target
  | name (r : Reg)
  | at (a : Addr)
  deriving DecidableEq, Repr

/-- The address of a target (R88). -/
def targetAddr : Target → Addr
  | .name r => regAddr r
  | .at a => a

/-- One line of host assembly: one host access (R88). -/
inductive Line
  | wr (t : Target) (v : Value)
  | rd (t : Target)
  | wrb (a : Addr) (v : Byte)
  | wrh (a : Addr) (v : BitVec 16)
  | rdb (a : Addr)
  | rdh (a : Addr)
  deriving DecidableEq, Repr

/-- The access of a line (R88). -/
def lineEvent : Line → HostEvent
  | .wr t v => .write .w32 (targetAddr t) (valueWord v)
  | .rd t => .read .w32 (targetAddr t)
  | .wrb a v => .write .w8 a (v.setWidth 32)
  | .wrh a v => .write .w16 a (v.setWidth 32)
  | .rdb a => .read .w8 a
  | .rdh a => .read .w16 a

/-- A program's transactions, in order (R90). -/
def programEvents (p : List Line) : List HostEvent := p.map lineEvent

/-- A raw word written to a register by name. -/
def wrRaw (r : Reg) (w : Word) : Line := .wr (.name r) (.raw w)

/-- `cmd MNEMONIC` (R89). -/
def asmCmd (i : Instr) : List Line := [wrRaw .cmd (encode i)]

/-- `ctrl ALG=a, FMODE=m, FTYPE=t3:t2:t1:t0` (R89). -/
def asmCtrl (a m : BitVec 4) (t3 t2 t1 t0 : BitVec 2) : List Line := [wrRaw .synCtrl (0#16 ++ t3 ++ t2 ++ t1 ++ t0 ++ m ++ a)]

/-- `mode m` (R89). -/
def asmMode (m : Word) : List Line := [wrRaw .fltCtrl m]

/-- `setop i, coarse, fine, level, warp, fold, fb` (R89). -/
def asmSetop (i : Fin 4) (coarse fine level warp fold fb : Value) : List Line :=
  [.wr (.name (.opCoarse i)) coarse, .wr (.name (.opFine i)) fine, .wr (.name (.opLevel i)) level,
    .wr (.name (.opWarp i)) warp, .wr (.name (.opFold i)) fold, .wr (.name (.opFeedback i)) fb]

/-- `clrstatus` (R89). -/
def asmClrStatus : List Line := [wrRaw .status 0x00000003#32]

/-- `.rep n` … `.endr` (R89): expanded before anything is issued. -/
def asmRep (n : Nat) (body : List Line) : List Line := (List.replicate n body).flatten

/-- One hexadecimal digit. -/
def hexDigit (n : Nat) : Char := if n < 10 then Char.ofNat (48 + n) else Char.ofNat (55 + n)

/-- n in hexadecimal, as so many digits. -/
def hexDigits : Nat → Nat → List Char
  | 0, _ => []
  | k + 1, n => hexDigits k (n / 16) ++ [hexDigit (n % 16)]

/-- n in hexadecimal, as text. -/
def hexText (digits n : Nat) : String := String.ofList (hexDigits digits n)

/-- The suffix and the number of data digits of an access width (R90). -/
def widthText : Width → String × Nat
  | .w8 => ("8", 2)
  | .w16 => ("16", 4)
  | .w32 => ("", 8)

/-- A transaction as text (R90); the reset input is no transaction. -/
def transactionText : HostEvent → Option String
  | .read w a => some ("R" ++ (widthText w).1 ++ " " ++ hexText 3 a.toNat)
  | .write w a v =>
    some ("W" ++ (widthText w).1 ++ " " ++ hexText 3 a.toNat ++ " " ++ hexText (widthText w).2 v.toNat)
  | .reset => none

/-- The block with a program issued to it: its transactions wait behind what already waits (R69). -/
def issueProgram (p : List Line) (s : State) : State := { s with bus := s.bus ++ programEvents p }

end Sys2Proof.Machine
end

