-- ==== Sys2Proof/Machine/System.lean ====
section
/-! DEFINITION. Several instances of the block in one system (R313): each has its own registers and its own BLOCK_BASE;
they share no state, and an access reaches the instance in whose register space its host address lies (R60). -/

namespace Sys2Proof.Machine

/-- One instance: where its register space sits, and its state. -/
structure Instance where
  base : Nat
  block : State
  deriving DecidableEq, Repr

/-- A block alone stands at the platform's BLOCK_BASE (R60). -/
def soleInstance (s : State) : Instance := { base := Config.blockBase, block := s }

/-- A host access at host address h, offered to an instance: it waits there if h lies in the instance's 512 bytes. -/
def offerAccess (h : Nat) (access : Addr → HostEvent) (x : Instance) : Instance :=
  match regAddressIn x.base h with
  | some a => { x with block := { x.block with bus := x.block.bus ++ [access a] } }
  | none => x

/-- A host access at host address h, issued to a system (R60, R313). -/
def issueAccess (h : Nat) (access : Addr → HostEvent) (sys : List Instance) : List Instance :=
  sys.map (offerAccess h access)

/-- One step of instance k of a system (R313). -/
def stepInstance (k : Nat) (sys : List Instance) : Host.Outcome (List Instance) Fault Refusal :=
  match sys[k]? with
  | none => .next sys
  | some x =>
    match step x.block with
    | .next t => .next (sys.set k { x with block := t })
    | .fault r => .fault r
    | .refused r => .refused r

end Sys2Proof.Machine
end

