-- ==== Sys2Proof/Safety.lean ====
section
/-! DEFINITION. What the claims are stated in: the invariant of the register file, reachability, frames over the
register space, and what a store of a computed number leaves in a register. -/

namespace Sys2Proof.Machine

/-- A number in a parameter's range (R23, R24, R29). -/
def inRange (b : Range) (v : F32) : Bool := fLe b.lo v && fLe v b.hi

/-- Every float parameter register holds a value of its range (R21). -/
def ParamsLegal (s : State) : Prop := ∀ r b, paramRange r = some b → inRange b (readReg s r) = true

/-- A phase: a number in [0, 1) that is not -0.0 (R25, R107). -/
def legalPhase (p : F32) : Bool := fLe zeroF p && fLt p oneF && !signBit p

/-- Every operator's phase is in [0, 1) (R25). -/
def PhasesLegal (s : State) : Prop := ∀ i, legalPhase (readReg s (.opPhase i)) = true

/-- The five section state registers (R31). -/
def sectionRegs : List Reg := [.f1S, .f2aS1, .f2aS2, .f2bS1, .f2bS2]

/-- The section states (R31, R231 property 1) and FLT_OUT (R261) are finite. -/
def FilterFinite (s : State) : Prop := ∀ r ∈ sectionRegs ++ [.fltOut], isFinite (readReg s r) = true

/-- The ROM holds `ALG_TABLE` (R32, R340). -/
def RomIntact (s : State) : Prop := ∀ a : Fin 11, readReg s (.algRom a) = machineConfig.algTable a

/-- The invariant of the register file: what sanitizing (R21), the wrap (R164), the filter's finiteness (R231, R261) and the
read-only ROM (R340) promise together. -/
def RegisterInv (s : State) : Prop := ParamsLegal s ∧ PhasesLegal s ∧ FilterFinite s ∧ RomIntact s

/-- The operators' previous outputs and the DC blocker's previous input are finite. -/
def SynthFinite (s : State) : Prop :=
  (∀ i, isFinite (readReg s (.opPrev i)) = true) ∧ isFinite (readReg s .dcbX1) = true

/-- The states a block can come to from hardware reset, whatever the host issues and whenever it does. -/
inductive Reachable : State → Prop
  | reset : Reachable State.reset
  | issue (s : State) (es : List HostEvent) (h : Reachable s) : Reachable { s with bus := s.bus ++ es }
  | step (s t : State) (h : Reachable s) (hs : step s = .next t) : Reachable t

/-- Every byte of the register space outside the words of the listed registers reads as before. -/
def BytesSameOutside (rs : List Reg) (s t : State) : Prop :=
  ∀ a : Addr, (∀ r ∈ rs, a &&& 0x1FC#9 ≠ regAddr r) → hostByte t a = hostByte s a

/-- What the model keeps beside the registers is unchanged: the pending accesses and the bus's answer. -/
def BusSame (s t : State) : Prop := t.bus = s.bus ∧ t.answer = s.answer

/-- A register holds w after a computed x is stored in it: x itself, or some NaN if x is a NaN (R101: any payload). -/
def Stores (x : F32) (w : Word) : Prop := if isNaN x then isNaN w = true else w = x

/-- Operator i's registers that SYN_STEP writes. -/
def opStateRegs : List Reg :=
  [.opPhase 0, .opPhase 1, .opPhase 2, .opPhase 3, .opPrev 0, .opPrev 1, .opPrev 2, .opPrev 3]

/-- An aligned 32-bit write of w to CMD is the block's oldest pending access, with `rest` behind it. -/
def CmdWritePending (s : State) (w : Word) (rest : List HostEvent) : Prop :=
  s.bus = .write .w32 0x1F8#9 w :: rest

/-- An access that is not an aligned 32-bit access (R62). -/
def IllegalAccess (w : Width) (a : Addr) : Prop := w ≠ .w32 ∨ a.toNat % 4 ≠ 0

/-- The float parameter registers with their addresses and (lo, hi, n), from the tables of R23, R24 and R29. -/
def paramTable : List (Addr × F32 × F32 × F32) :=
  [(0x004#9, 0x00000000#32, 0x3F800000#32, 0x00000000#32), (0x008#9, 0x00000000#32, 0x3F800000#32, 0x00000000#32),
   (0x00C#9, 0x00000000#32, 0x3F800000#32, 0x00000000#32), (0x010#9, 0x00000000#32, 0x49800000#32, 0x00000000#32),
   (0x014#9, 0x00000000#32, 0x3F800000#32, 0x00000000#32), (0x018#9, 0xC9800000#32, 0x49800000#32, 0x00000000#32)]
  ++ [0x040#9, 0x060#9, 0x080#9, 0x0A0#9].flatMap (fun b =>
    [(b, 0x00000000#32, 0x49800000#32, 0x00000000#32), (b + 0x04#9, 0x00000000#32, 0x41800000#32, 0x00000000#32),
     (b + 0x08#9, 0x00000000#32, 0x3F800000#32, 0x00000000#32), (b + 0x0C#9, 0x00000000#32, 0x3F800000#32, 0x00000000#32),
     (b + 0x10#9, 0x00000000#32, 0x3F800000#32, 0x00000000#32), (b + 0x14#9, 0x00000000#32, 0x3F800000#32, 0x00000000#32)])
  ++ [(0x104#9, 0x41A00000#32, 0x469C4000#32, 0x41A00000#32), (0x108#9, 0x3C23D70A#32, 0x3F34FDF4#32, 0x3F34FDF4#32),
   (0x10C#9, 0x00000000#32, 0x3F800000#32, 0x00000000#32), (0x110#9, 0x35800000#32, 0x3F800000#32, 0x37AEC33E#32),
   (0x114#9, 0xC9800000#32, 0x49800000#32, 0x00000000#32)]

/-- The registers whose reset value is not 0, with it (spec/10_state.md section 7); the ROM is apart. -/
def nonzeroResets : List (Addr × Word) :=
  [(0x014#9, 0x37AEC33E#32), (0x040#9, 0x3F800000#32), (0x044#9, 0x3F800000#32), (0x060#9, 0x3F800000#32),
   (0x064#9, 0x3F800000#32), (0x080#9, 0x3F800000#32), (0x084#9, 0x3F800000#32), (0x0A0#9, 0x3F800000#32),
   (0x0A4#9, 0x3F800000#32), (0x104#9, 0x469C4000#32), (0x108#9, 0x3F34FDF4#32), (0x110#9, 0x37AEC33E#32)]

/-- The filter's registers with which a FLT_STEP processes its sample (R256), spelled out. -/
def afterModeChange (P : Filter) : Filter :=
  if P.mode = P.lastMode then P
  else
    { P with
      f1S := 0x00000000#32
      f2aS1 := 0x00000000#32
      f2aS2 := 0x00000000#32
      f2bS1 := 0x00000000#32
      f2bS2 := 0x00000000#32
      lastMode := P.mode }

/-- The sample the sections get (R254), spelled out. -/
def drivenSample (P : Filter) : F32 :=
  if fLt 0x00000000#32 P.drive
  then softClip (fMul P.input (fAdd 0x3F800000#32 (fMul 0x41100000#32 P.drive))) else P.input

/-- The four phase registers' addresses (R25). -/
def phaseAddrs : List Addr := [0x058#9, 0x078#9, 0x098#9, 0x0B8#9]

/-- The other state registers' addresses: previous outputs, DC blocker, filter sections (R25, R26, R31). -/
def plainStateAddrs : List Addr :=
  [0x05C#9, 0x07C#9, 0x09C#9, 0x0BC#9, 0x0C0#9, 0x0C4#9, 0x120#9, 0x124#9, 0x128#9, 0x12C#9, 0x130#9]

end Sys2Proof.Machine
end

