-- ==== Sys2Proof/Certificates/Slice0/Obligations.lean ====
section
/-! DEFINITION. The statements about the machine, for the provers. Each is named for what it states, and its docstring
says which rule of the spec it formalises. -/

open Sys2Proof Sys2Proof.Machine

/-! ## Commands: encoding and decoding -/

/-- R81 and R82's table on a few words written out from the spec (spec/95_test_vectors.md section 2.1). -/
def Obligations.SpecCommandWordsDecode : Prop :=
  decode 0x00000000#32 = .legal .nop ∧ decode 0x00000001#32 = .legal .synStep ∧
  decode 0x00000004#32 = .legal .synReset ∧ decode 0x00000010#32 = .legal .fltStep ∧
  decode 0x00000011#32 = .legal .fltReset ∧ decode 0x00000005#32 = .illegal .unassignedOp ∧
  decode 0x000000FF#32 = .illegal .unassignedOp ∧ decode 0x00000100#32 = .illegal .reservedBits ∧
  decode 0x80000010#32 = .illegal .reservedBits

/-- R81: a word is legal exactly when RSV = 0 and OP is a listed code, and it is then the command of that code. -/
def Obligations.CommandWordLegalExactly : Prop :=
  ∀ (w : Word) (i : Instr), decode w = .legal i ↔
    w.extractLsb' 8 24 = 0#24 ∧
    (i, w.extractLsb' 0 8) ∈ [(Instr.nop, 0x00#8), (Instr.synStep, 0x01#8), (Instr.synResetOps, 0x02#8),
      (Instr.synResetDcb, 0x03#8), (Instr.synReset, 0x04#8), (Instr.fltStep, 0x10#8), (Instr.fltReset, 0x11#8)]

/-- Decode and encode agree, on words and on a byte stream (R68, R80): encoding a command and decoding gives it back
with the rest of the stream, and a word that decodes to a command is that command's encoding, so no two words do. -/
def Obligations.DecodeEncodeAgree : Prop :=
  (∀ (i : Instr) (rest : List Byte), decodeBytes (encodeBytes i ++ rest) = (.legal i, rest)) ∧
  (∀ (w : Word) (i : Instr), decode w = .legal i → encode i = w) ∧
  (∀ (b0 b1 b2 b3 : Byte) (rest : List Byte) (i : Instr),
    decodeBytes (b0 :: b1 :: b2 :: b3 :: rest) = (.legal i, rest) → encodeBytes i = [b0, b1, b2, b3])

/-! ## The bus and the step -/

/-- R66, R83: a pending CMD write whose word decodes to a command runs exactly that command. -/
def Obligations.StepRunsTheDecodedCommand : Prop :=
  ∀ (s : State) (w : Word) (rest : List HostEvent) (i : Instr), CmdWritePending s w rest → decode w = .legal i →
    step s = exec i { s with bus := rest, answer := none }

/-- R82, R301: any other word sets ERR_CMD and changes no other register. -/
def Obligations.IllegalWordSetsErrCmdOnly : Prop :=
  ∀ (s : State) (w : Word) (rest : List HostEvent), CmdWritePending s w rest →
    (w.extractLsb' 8 24 ≠ 0#24 ∨
      w.extractLsb' 0 8 ∉ [0x00#8, 0x01#8, 0x02#8, 0x03#8, 0x04#8, 0x10#8, 0x11#8]) →
    step s = .next { s with bus := rest, answer := none, status := { s.status with errCmd := true } } ∧
    busRead { s with bus := rest, answer := none, status := { s.status with errCmd := true } } 0x1FC#9 =
      busRead s 0x1FC#9 ||| 0x00000001#32

/-- R65, R302, R305: an access of another width or misaligned, at any address, sets ERR_BUS and nothing else; a read
returns 0. -/
def Obligations.BusErrorSetsErrBusOnly : Prop :=
  ∀ (s : State) (rest : List HostEvent) (w : Width) (a : Addr), IllegalAccess w a →
    (s.bus = .read w a :: rest →
      step s = .next { s with bus := rest, answer := some 0x00000000#32, status := { s.status with errBus := true } }) ∧
    (∀ v, s.bus = .write w a v :: rest →
      step s = .next { s with bus := rest, answer := none, status := { s.status with errBus := true } }) ∧
    busRead { s with status := { s.status with errBus := true } } 0x1FC#9 = busRead s 0x1FC#9 ||| 0x00000002#32

/-- R63: an aligned read returns the register's value, 0 at CMD and at a reserved address, and changes no register. -/
def Obligations.AlignedReadReturnsRegister : Prop :=
  ∀ (s : State) (a : Addr) (rest : List HostEvent), a.toNat % 4 = 0 → s.bus = .read .w32 a :: rest →
    step s = .next { s with bus := rest, answer := some (busRead s a) } ∧
    (∀ r, r ≠ .cmd → a = regAddr r → busRead s a = readReg s r) ∧
    (a = 0x1F8#9 → busRead s a = 0x00000000#32) ∧
    ((∀ r, a ≠ regAddr r) → busRead s a = 0x00000000#32)

/-- R64, R21: a host write of a parameter or state register stores the sanitized value, and every byte of every other
register, STATUS included, reads as before. R25, R26, R31: at a state register's address the value then read is +0.0 for
a NaN or an infinity, and for a finite word the wrapped word in a phase register and the word itself in every other. -/
def Obligations.HostWriteStoresSanitizedValue : Prop :=
  (∀ (s : State) (r : Reg) (v : Word) (rest : List HostEvent), (regKind r = .parameter ∨ regKind r = .state) →
    s.bus = .write .w32 (regAddr r) v :: rest →
    ∃ t, step s = .next t ∧ busRead t (regAddr r) = sanitize r v ∧ BytesSameOutside [r] s t ∧
      t.bus = rest ∧ t.answer = none ∧ t.freeIdx = s.freeIdx) ∧
  (∀ (s : State) (a : Addr) (v : Word) (rest : List HostEvent), (a ∈ phaseAddrs ∨ a ∈ plainStateAddrs) →
    s.bus = .write .w32 a v :: rest →
    ∃ t, step s = .next t ∧
      (isFinite v = false → busRead t a = 0x00000000#32) ∧
      (isFinite v = true → a ∈ phaseAddrs → busRead t a = wrap01 v) ∧
      (isFinite v = true → a ∈ plainStateAddrs → busRead t a = v))

/-- R27, R30, R32, R38: a write to an output register, to FLT_LAST_MODE, to the ROM or to a reserved address is
ignored and is no error. -/
def Obligations.ReadOnlyWritesIgnored : Prop :=
  ∀ (s : State) (a : Addr) (v : Word) (rest : List HostEvent), a.toNat % 4 = 0 →
    (a = 0x01C#9 ∨ a = 0x118#9 ∨ a = 0x11C#9 ∨ (0x180 ≤ a.toNat ∧ a.toNat ≤ 0x1A8) ∨ (∀ r, a ≠ regAddr r)) →
    s.bus = .write .w32 a v :: rest → step s = .next { s with bus := rest, answer := none }

/-- R34, R64: a STATUS write clears exactly the two bits it writes as 1. -/
def Obligations.StatusWriteOneToClear : Prop :=
  ∀ (s : State) (v : Word) (rest : List HostEvent), s.bus = .write .w32 0x1FC#9 v :: rest →
    ∃ t, step s = .next t ∧ busRead t 0x1FC#9 = busRead s 0x1FC#9 &&& ~~~(v &&& 0x00000003#32) ∧
      BytesSameOutside [.status] s t ∧ t.bus = rest ∧ t.answer = none ∧ t.freeIdx = s.freeIdx

/-- R69, R335: a read issued behind a command's CMD write returns what the command left in the register. -/
def Obligations.ReadBehindCommandSeesItsResult : Prop :=
  ∀ (s t : State) (a : Addr) (i : Instr) (rest : List HostEvent), a.toNat % 4 = 0 →
    s.bus = .write .w32 0x1F8#9 (encode i) :: .read .w32 a :: rest →
    exec i { s with bus := .read .w32 a :: rest, answer := none } = .next t →
    Sys2Proof.core.run 2 s = .next { t with bus := rest, answer := some (busRead t a) }

/-! ## Sanitizing -/

/-- R22: what SYN_CTRL reads after a host write of v, field by field. -/
def Obligations.SynCtrlFieldsSaturate : Prop :=
  ∀ (s : State) (v : Word) (rest : List HostEvent), s.bus = .write .w32 0x000#9 v :: rest →
    ∃ t, step s = .next t ∧
      ((busRead t 0x000#9).extractLsb' 0 4).toNat = min (v.extractLsb' 0 4).toNat 10 ∧
      (busRead t 0x000#9).extractLsb' 4 4 = v.extractLsb' 4 4 ∧
      (∀ i < 4, ((busRead t 0x000#9).extractLsb' (8 + 2 * i) 2).toNat = min (v.extractLsb' (8 + 2 * i) 2).toNat 2) ∧
      (busRead t 0x000#9).extractLsb' 16 16 = 0#16

/-- R28, R253: after a host write of v FLT_CTRL reads min(v, 11) of bits 3:0, and that is the mode the filter runs in. The
twelve modes' entries are those of R252's default table; that the machine's table is the default one is the model's
choice (log entry 4). -/
def Obligations.FltCtrlModeSaturates : Prop :=
  (∀ (s : State) (v : Word) (rest : List HostEvent), s.bus = .write .w32 0x100#9 v :: rest →
    ∃ t, step s = .next t ∧ (busRead t 0x100#9).toNat = min (v.extractLsb' 0 4).toNat 11 ∧
      t.flt.mode.val = min (v.extractLsb' 0 4).toNat 11) ∧
  (List.finRange 12).map machineConfig.modeTable =
    [(.one, .lp), (.one, .hp), (.two, .lp), (.two, .hp), (.two, .bp), (.two, .notch), (.two, .ap), (.cas, .lp),
     (.cas, .hp), (.cas, .bp), (.cas, .notch), (.cas, .ap)]

/-- R102 with the tables of R23, R24 and R29: a float parameter register reads, after a write of v, the table's NaN
value for a NaN, lo below lo, hi above hi, and v between. -/
def Obligations.FloatParametersClampOnWrite : Prop :=
  ∀ (s : State) (a : Addr) (lo hi n v : F32) (rest : List HostEvent), (a, lo, hi, n) ∈ paramTable →
    s.bus = .write .w32 a v :: rest →
    ∃ t, step s = .next t ∧
      (isNaN v = true → busRead t a = n) ∧
      (fLt v lo = true → busRead t a = lo) ∧
      (fLt hi v = true → busRead t a = hi) ∧
      (fLe lo v = true → fLe v hi = true → busRead t a = v)

/-- R21, R107: a value a register has stored is stored unchanged when the host writes it back. -/
def Obligations.StoredValueIsStable : Prop :=
  ∀ (r : Reg) (v : Word), sanitize r (sanitize r v) = sanitize r v

/-! ## Reset and the algorithm ROM -/

/-- R330: after a hardware reset every register reads its table's reset value and the ROM holds `ALG_TABLE`; and the
reset input puts every register of any block into that value. Two parts of the last clause are the model's choice: what
the host has still to issue stays (log entry 8), and the table is put back in a state whose ROM does not hold it (log
entry 7). -/
def Obligations.ResetRegisterValues : Prop :=
  (∀ p ∈ nonzeroResets, busRead State.reset p.1 = p.2) ∧
  (∀ a : Fin 11, busRead State.reset (BitVec.ofNat 9 (0x180 + 4 * a.val)) = machineConfig.algTable a) ∧
  (∀ a : Addr, a.toNat % 4 = 0 → (∀ p ∈ nonzeroResets, a ≠ p.1) → (a.toNat < 0x180 ∨ 0x1A8 < a.toNat) →
    busRead State.reset a = 0x00000000#32) ∧
  (∀ (s : State) (rest : List HostEvent), s.bus = .reset :: rest →
    ∃ t, step s = .next t ∧ t.bus = rest ∧ ∀ a, busRead t a = busRead State.reset a)

/-- R177 (1) and (2), R32: wherever the ROM is intact, the entry ALG_ALL_CARRIERS, at its default 8 (log entry 4), has
four carriers and no modulation, no entry has a bit with src ≤ dst, and bits 31:20 of every entry are 0. -/
def Obligations.RomMeetsTableConstraints : Prop :=
  ∀ s : State, RomIntact s → busRead s 0x1A0#9 = 0x000F0000#32 ∧
    ∀ a : Fin 11, let e := busRead s (BitVec.ofNat 9 (0x180 + 4 * a.val))
      (∀ src dst : Fin 4, src ≤ dst → e.getLsbD (4 * src.val + dst.val) = false) ∧ e.extractLsb' 20 12 = 0#12

/-! ## NOP and the reset commands -/

/-- R86, R87: NOP is the word 0 and leaves every register unchanged; a word with OP = 0 and RSV not 0 is no command. -/
def Obligations.NopChangesNothing : Prop :=
  decode 0x00000000#32 = .legal .nop ∧ (∀ s : State, exec .nop s = .next s) ∧
  ∀ w : Word, w.extractLsb' 0 8 = 0x00#8 → w.extractLsb' 8 24 ≠ 0#24 → ∀ i, decode w ≠ .legal i

/-- R201: the word 2 zeroes the four phases and previous outputs and writes nothing else. -/
def Obligations.SynResetOpsZeroesOperators : Prop :=
  decode 0x00000002#32 = .legal .synResetOps ∧
  ∀ s : State, ∃ t, exec .synResetOps s = .next t ∧
    (∀ i : Fin 4, busRead t (BitVec.ofNat 9 (0x058 + 0x20 * i.val)) = 0x00000000#32 ∧
      busRead t (BitVec.ofNat 9 (0x05C + 0x20 * i.val)) = 0x00000000#32) ∧
    BytesSameOutside opStateRegs s t ∧ BusSame s t ∧ t.freeIdx = s.freeIdx

/-- R202: the word 3 zeroes the DC blocker's state and writes nothing else. -/
def Obligations.SynResetDcbZeroesBlocker : Prop :=
  decode 0x00000003#32 = .legal .synResetDcb ∧
  ∀ s : State, ∃ t, exec .synResetDcb s = .next t ∧
    busRead t 0x0C0#9 = 0x00000000#32 ∧ busRead t 0x0C4#9 = 0x00000000#32 ∧
    BytesSameOutside [.dcbX1, .dcbY1] s t ∧ BusSame s t ∧ t.freeIdx = s.freeIdx

/-- R203: the word 4 zeroes both, writes nothing else, and equals SYN_RESET_OPS followed by SYN_RESET_DCB. -/
def Obligations.SynResetIsBothResets : Prop :=
  decode 0x00000004#32 = .legal .synReset ∧
  ∀ s : State, ∃ t u, exec .synReset s = .next t ∧ exec .synResetOps s = .next u ∧ exec .synResetDcb u = .next t ∧
    (∀ r ∈ opStateRegs ++ [.dcbX1, .dcbY1], busRead t (regAddr r) = 0x00000000#32) ∧
    BytesSameOutside (opStateRegs ++ [.dcbX1, .dcbY1]) s t ∧ BusSame s t ∧ t.freeIdx = s.freeIdx

/-- R259: the word 0x11 zeroes the five section states; FLT_LAST_MODE, FLT_OUT and every parameter stay. -/
def Obligations.FltResetZeroesSections : Prop :=
  decode 0x00000011#32 = .legal .fltReset ∧
  ∀ s : State, ∃ t, exec .fltReset s = .next t ∧
    (∀ r ∈ sectionRegs, busRead t (regAddr r) = 0x00000000#32) ∧
    BytesSameOutside sectionRegs s t ∧ BusSame s t ∧ t.freeIdx = s.freeIdx

/-! ## SYN_STEP -/

/-- R161, R163, R164: each accumulator advances twice by freq·T_os, wrapped each time, in every state. -/
def Obligations.SynStepAdvancesPhases : Prop :=
  ∀ (s : State), ∃ t, exec .synStep s = .next t ∧ ∀ i : Fin 4,
    let freq := if s.syn.ctrl.fmode.getLsbD i.val then fMul s.syn.ops[i].coarse s.syn.ops[i].fine
      else fMul (fMul s.syn.baseFreq s.syn.ops[i].coarse) s.syn.ops[i].fine
    let inc := fMul freq (fMul s.syn.dt 0x3F000000#32)
    busRead t (BitVec.ofNat 9 (0x058 + 0x20 * i.val)) = wrap01 (fAdd (wrap01 (fAdd s.syn.ops[i].phase inc)) inc)

/-- R180: the operator pass, unrolled operator by operator in the order 3, 2, 1, 0 with every sum in its order. -/
def Obligations.OperatorPassUnrolls : Prop :=
  ∀ (c : Config) (P : Synth) (e : Word) (v : Vector Voice 4),
    let inc (i : Fin 4) := fMul (if P.ctrl.fmode.getLsbD i.val then fMul P.ops[i].coarse P.ops[i].fine
      else fMul (fMul P.baseFreq P.ops[i].coarse) P.ops[i].fine) (fMul P.dt 0x3F000000#32)
    let ph (i : Fin 4) := wrap01 (fAdd v[i].phase (inc i))
    let term (src dst : Fin 4) (y g : F32) :=
      if e.getLsbD (4 * src.val + dst.val) then fAdd g (fMul (fMul y P.ops[src].level) P.modDepth) else g
    let out (i : Fin 4) (g : F32) :=
      waveFold (waveWarp c (wrap01 (fAdd (ph i) (fAdd g (softClip (fMul v[i].prev P.ops[i].feedback)))))
        P.ops[i].warp (inc i)) P.ops[i].fold P.ctrl.ftype[i]
    let y3 := out 3 0x00000000#32
    let y2 := out 2 (term 3 2 y3 0x00000000#32)
    let y1 := out 1 (term 2 1 y2 (term 3 1 y3 0x00000000#32))
    let y0 := out 0 (term 1 0 y1 (term 2 0 y2 (term 3 0 y3 0x00000000#32)))
    let mix (i : Fin 4) (y m : F32) := if e.getLsbD (16 + i.val) then fAdd m (fMul y P.ops[i].level) else m
    operatorPass c P e v =
      (#v[⟨ph 0, y0⟩, ⟨ph 1, y1⟩, ⟨ph 2, y2⟩, ⟨ph 3, y3⟩], mix 0 y0 (mix 1 y1 (mix 2 y2 (mix 3 y3 0x00000000#32))))

/-- R190 to R200: two passes with the same parameters, the mean of their mixes, the DC blocker with its flushed
state, external PM when it applies, and the gain; what each register then holds (a NaN with any payload, R101, log entry
3). With a gain of 0 and a value that is no finite number, R199's zero stands for R198's product (log entry 21). That DCB_R and EXT_EPS stand at the spec's defaults is the model's choice (log entry 4). -/
def Obligations.SynStepComputesSample : Prop :=
  ∀ (s : State),
    let P := s.syn
    let c := machineConfig
    let e := s.algRom[P.ctrl.alg]
    let p0 := operatorPass c P e (Vector.ofFn (fun i : Fin 4 => { phase := P.ops[i].phase, prev := P.ops[i].prev }))
    let p1 := operatorPass c P e p0.1
    let raw := fMul (fAdd p0.2 p1.2) 0x3F000000#32
    let y := flushDenormal (fAdd (fSub raw P.dcbX1) (fMul 0x3F7F54A7#32 P.dcbY1))
    let z := if fLt 0x00000000#32 P.pmDepth && fLt 0x358637BD#32 (fAbs P.extIn)
      then c.fsin (fAdd (c.fasin (clamp y 0xBF800000#32 0x3F800000#32)) (fMul P.extIn P.pmDepth)) else y
    ∃ t, exec .synStep s = .next t ∧
      (∀ i : Fin 4, Stores p1.1[i].phase (busRead t (BitVec.ofNat 9 (0x058 + 0x20 * i.val))) ∧
        Stores p1.1[i].prev (busRead t (BitVec.ofNat 9 (0x05C + 0x20 * i.val)))) ∧
      Stores (flushDenormal raw) (busRead t 0x0C0#9) ∧ Stores y (busRead t 0x0C4#9) ∧
      (isZeroF P.gain = false ∨ isFinite z = true → Stores (fMul z P.gain) (busRead t 0x01C#9)) ∧
      (isZeroF P.gain = true → isZeroF (busRead t 0x01C#9) = true)

/-- R200, R262: SYN_STEP writes the operators' states, the DC blocker's state and SYN_OUT, and no other byte of the
register space; the model's free-value index is the one other field it advances (log entry 3). -/
def Obligations.SynStepFrame : Prop :=
  ∀ (s : State), ∃ t, exec .synStep s = .next t ∧
    BytesSameOutside (opStateRegs ++ [.dcbX1, .dcbY1, .synOut]) s t ∧ BusSame s t ∧ t.freeIdx = s.freeIdx + 1

/-- R165: the phases a SYN_STEP leaves do not depend on any previous output, level, warp, fold, feedback, depth, gain,
input, fold type, algorithm or ROM entry. -/
def Obligations.ModulationNeverMovesPhase : Prop :=
  ∀ (s u : State), s.syn.ctrl.fmode = u.syn.ctrl.fmode → s.syn.baseFreq = u.syn.baseFreq → s.syn.dt = u.syn.dt →
    (∀ i : Fin 4, s.syn.ops[i].phase = u.syn.ops[i].phase ∧ s.syn.ops[i].coarse = u.syn.ops[i].coarse ∧
      s.syn.ops[i].fine = u.syn.ops[i].fine) →
    ∃ t w, exec .synStep s = .next t ∧ exec .synStep u = .next w ∧
      ∀ i : Fin 4, busRead t (regAddr (.opPhase i)) = busRead w (regAddr (.opPhase i))

/-- R166: with SYN_DT = 0 a SYN_STEP leaves every legal phase as it is. -/
def Obligations.ZeroPeriodHoldsPhase : Prop :=
  ∀ (s : State), ParamsLegal s → PhasesLegal s → isZeroF s.syn.dt = true →
    ∃ t, exec .synStep s = .next t ∧
      ∀ i : Fin 4, busRead t (regAddr (.opPhase i)) = busRead s (regAddr (.opPhase i))

/-- R162: with every operator in fixed mode SYN_BASE_FREQ has no effect on a SYN_STEP. -/
def Obligations.FixedModeIgnoresBaseFreq : Prop :=
  ∀ (s : State) (f : F32), s.syn.ctrl.fmode = 0xF#4 →
    ∃ t, exec .synStep s = .next t ∧
      exec .synStep { s with syn := { s.syn with baseFreq := f } } = .next { t with syn := { t.syn with baseFreq := f } }

/-- R167, R168, R338: what SYN_STEP leaves in operator i's registers does not depend on the registers of an operator
with a lower index. The two states agree in the index of the model's free values (log entry 3), so that a stored NaN has
one payload in both. -/
def Obligations.LowerOperatorsNeverReachHigher : Prop :=
  ∀ (s u : State) (i : Fin 4), s.syn.ctrl = u.syn.ctrl → s.syn.modDepth = u.syn.modDepth →
    s.syn.baseFreq = u.syn.baseFreq → s.syn.dt = u.syn.dt → s.algRom = u.algRom → s.freeIdx = u.freeIdx →
    (∀ j : Fin 4, i ≤ j → s.syn.ops[j] = u.syn.ops[j]) →
    ∃ t w, exec .synStep s = .next t ∧ exec .synStep u = .next w ∧ ∀ j : Fin 4, i ≤ j → t.syn.ops[j] = w.syn.ops[j]

/-- R199: gain 0 gives a zero output in every step, whatever the parameters and the state. R199 infers it from y being
finite, which fails for a host-written DC blocker state near the largest number (BlockerStateCanOverflow); that the zero
stands there too, for the NaN that R198's product would be, is the model's reading (log entry 21, DEDUCED). -/
def Obligations.ZeroGainSilences : Prop :=
  ∀ (s : State), isZeroF s.syn.gain = true →
    ∃ t, exec .synStep s = .next t ∧ isZeroF (busRead t 0x01C#9) = true

/-- The model's finding beside R101 (log entry 5): a host can bring the block, from reset, into a state with legal
parameters and phases and every synth state register finite, in which the blocker's sum (R193) overflows and SYN_STEP
leaves an infinity in DCB_Y1. The two blocker values are ones a host write stores unchanged (R26). -/
def Obligations.BlockerStateCanOverflow : Prop :=
  ∃ s t : State, Reachable s ∧ ParamsLegal s ∧ PhasesLegal s ∧ SynthFinite s ∧ isFinite s.syn.dcbY1 = true ∧
    exec .synStep s = .next t ∧ isInf (busRead t 0x0C4#9) = true

/-! ## FLT_STEP -/

/-- R254, R256, R257, R258, path ONE. -/
def Obligations.FltStepOnePath : Prop :=
  ∀ (s : State) (ty : FilterType), machineConfig.modeTable s.flt.mode = (.one, ty) →
    let Q := afterModeChange s.flt
    let r := sec1 machineFilter ty Q.f1S (drivenSample s.flt) (fd1 machineFilter s.flt.dt s.flt.cutoff)
    ∃ t, exec .fltStep s = .next t ∧ Stores (flushDenormal r.s) (busRead t 0x120#9) ∧ Stores r.y (busRead t 0x118#9) ∧
      busRead t 0x124#9 = Q.f2aS1 ∧ busRead t 0x128#9 = Q.f2aS2 ∧ busRead t 0x12C#9 = Q.f2bS1 ∧
      busRead t 0x130#9 = Q.f2bS2 ∧ busRead t 0x11C#9 = busRead s 0x100#9

/-- R254, R256, R257, R258, path TWO. -/
def Obligations.FltStepTwoPath : Prop :=
  ∀ (s : State) (ty : FilterType), machineConfig.modeTable s.flt.mode = (.two, ty) →
    let Q := afterModeChange s.flt
    let r := sec2 machineFilter ty ⟨Q.f2aS1, Q.f2aS2⟩ (drivenSample s.flt)
      (fd2 machineFilter s.flt.dt s.flt.cutoff s.flt.damp ty)
    ∃ t, exec .fltStep s = .next t ∧ Stores (flushDenormal r.s.s1) (busRead t 0x124#9) ∧
      Stores (flushDenormal r.s.s2) (busRead t 0x128#9) ∧ Stores r.y (busRead t 0x118#9) ∧
      busRead t 0x120#9 = Q.f1S ∧ busRead t 0x12C#9 = Q.f2bS1 ∧ busRead t 0x130#9 = Q.f2bS2 ∧
      busRead t 0x11C#9 = busRead s 0x100#9

/-- R251, R254, R256, R257, R258, path CAS: section B runs on A's unflushed output, with A's coefficients. Where that output
is outside [-2^20, 2^20], R231 asks nothing of B's results. The clauses for that case are the model's reading of R261 (log
entry 20, DEDUCED): the finite results stand, and the registers hold finite values whatever the others are. -/
def Obligations.FltStepCascadePath : Prop :=
  ∀ (s : State) (ty : FilterType), machineConfig.modeTable s.flt.mode = (.cas, ty) →
    let Q := afterModeChange s.flt
    let k := fd2 machineFilter s.flt.dt s.flt.cutoff s.flt.damp ty
    let a := sec2 machineFilter ty ⟨Q.f2aS1, Q.f2aS2⟩ (drivenSample s.flt) k
    let b := sec2 machineFilter ty ⟨Q.f2bS1, Q.f2bS2⟩ a.y k
    ∃ t, exec .fltStep s = .next t ∧ Stores (flushDenormal a.s.s1) (busRead t 0x124#9) ∧
      Stores (flushDenormal a.s.s2) (busRead t 0x128#9) ∧
      (legalSample a.y = true ∨ isFinite b.s.s1 = true → Stores (flushDenormal b.s.s1) (busRead t 0x12C#9)) ∧
      (legalSample a.y = true ∨ isFinite b.s.s2 = true → Stores (flushDenormal b.s.s2) (busRead t 0x130#9)) ∧
      (legalSample a.y = true ∨ isFinite b.y = true → Stores b.y (busRead t 0x118#9)) ∧
      (legalSample a.y = false → isFinite (busRead t 0x12C#9) = true ∧ isFinite (busRead t 0x130#9) = true ∧
        isFinite (busRead t 0x118#9) = true) ∧
      busRead t 0x120#9 = Q.f1S ∧ busRead t 0x11C#9 = busRead s 0x100#9

/-- R258, R262: FLT_STEP writes the section states, FLT_LAST_MODE and FLT_OUT, and no other byte of the register
space; the model's free-value index is the one other field it advances (log entry 3). -/
def Obligations.FltStepFrame : Prop :=
  ∀ (s : State), ∃ t, exec .fltStep s = .next t ∧
    BytesSameOutside (sectionRegs ++ [.fltOut, .fltLastMode]) s t ∧ BusSame s t ∧ t.freeIdx = s.freeIdx + 1

/-- R256: a step in a new mode runs as from zeroed sections already in that mode, and leaves FLT_LAST_MODE there. -/
def Obligations.ModeChangeStartsFromZero : Prop :=
  ∀ (s : State), s.flt.mode ≠ s.flt.lastMode →
    ∃ t, exec .fltStep s = .next t ∧ busRead t 0x11C#9 = busRead s 0x100#9 ∧
      exec .fltStep (setReg (setReg (setReg (setReg (setReg { s with flt := { s.flt with lastMode := s.flt.mode } }
        .f1S 0x00000000#32) .f2aS1 0x00000000#32) .f2aS2 0x00000000#32) .f2bS1 0x00000000#32) .f2bS2 0x00000000#32)
        = .next t

/-- R257: without a mode change the sections a path does not use keep their state. -/
def Obligations.InactiveSectionsKeepState : Prop :=
  ∀ (s : State), s.flt.mode = s.flt.lastMode → ∃ t, exec .fltStep s = .next t ∧
    ((machineConfig.modeTable s.flt.mode).1 = .one → ∀ r ∈ [Reg.f2aS1, .f2aS2, .f2bS1, .f2bS2], readReg t r = readReg s r) ∧
    ((machineConfig.modeTable s.flt.mode).1 = .two → ∀ r ∈ [Reg.f1S, .f2bS1, .f2bS2], readReg t r = readReg s r) ∧
    ((machineConfig.modeTable s.flt.mode).1 = .cas → readReg t .f1S = readReg s .f1S)

/-- R111, R112, R194, R257: a SYN_STEP leaves no subnormal in the DC blocker's state, and a FLT_STEP none in the state of
a section it ran. -/
def Obligations.StepsLeaveNoSubnormalState : Prop :=
  (∀ s : State, ∃ t, exec .synStep s = .next t ∧
    isSubnormal (busRead t 0x0C0#9) = false ∧ isSubnormal (busRead t 0x0C4#9) = false) ∧
  (∀ s : State, ∃ t, exec .fltStep s = .next t ∧
    ((machineConfig.modeTable s.flt.mode).1 = .one → isSubnormal (readReg t .f1S) = false) ∧
    ((machineConfig.modeTable s.flt.mode).1 ≠ .one →
      isSubnormal (readReg t .f2aS1) = false ∧ isSubnormal (readReg t .f2aS2) = false) ∧
    ((machineConfig.modeTable s.flt.mode).1 = .cas →
      isSubnormal (readReg t .f2bS1) = false ∧ isSubnormal (readReg t .f2bS2) = false))

/-- R229: in a one-pole mode FLT_DAMP has no effect. -/
def Obligations.OnePoleIgnoresDamping : Prop :=
  ∀ (s : State) (d : F32), (machineConfig.modeTable s.flt.mode).1 = .one →
    ∃ t, exec .fltStep s = .next t ∧
      exec .fltStep { s with flt := { s.flt with damp := d } } = .next { t with flt := { t.flt with damp := d } }

/-- R231 property 3 through a whole step: from zero section states, an input of +0.0 leaves the section states and
FLT_OUT at +0.0. That the zero is +0.0 bit for bit is the model's reading of property 3 (log entry 2). -/
def Obligations.ZeroInputStaysZero : Prop :=
  ∀ (s : State), ParamsLegal s → (∀ r ∈ sectionRegs, readReg s r = 0x00000000#32) → s.flt.input = 0x00000000#32 →
    ∃ t, exec .fltStep s = .next t ∧ (∀ r ∈ sectionRegs, readReg t r = 0x00000000#32) ∧
      busRead t 0x118#9 = 0x00000000#32

/-! ## Numeric rules -/

/-- R104: the properties of `Fsin` and `Fasin`, of the machine's own (log entry 2). -/
def Obligations.TrigFunctionsMeetRequirements : Prop :=
  (∀ x, isFinite x = true → fLe (fAbs (machineConfig.fsin x)) 0x3F800000#32 = true) ∧
  machineConfig.fsin 0x00000000#32 = 0x00000000#32 ∧
  (∀ x, isFinite x = true → machineConfig.fsin (fNeg x) = fNeg (machineConfig.fsin x)) ∧
  (∀ x, fLe (fAbs x) 0x3F800000#32 = true → fLe (fAbs (machineConfig.fasin x)) 0x3FC90FDB#32 = true) ∧
  machineConfig.fasin 0x00000000#32 = 0x00000000#32 ∧
  (∀ x, fLe (fAbs x) 0x3F800000#32 = true → machineConfig.fasin (fNeg x) = fNeg (machineConfig.fasin x))

/-- R231, all of it and nothing more, of the machine's own designers and sections. Log entry 2 says how the model reads
its open points: the coefficients and the sign of a zero in property 3, and the signals and settling of property 4. -/
def Obligations.FilterFunctionsMeetRequirements : Prop :=
  (∀ T fc, fLe 0x35800000#32 T = true → fLe T 0x3F800000#32 = true → fLe 0x41A00000#32 fc = true →
    fLe fc 0x469C4000#32 = true →
    let k := fd1 machineFilter T fc
    isFinite (machineConfig.wFn T fc) = true ∧ isFinite k.c0 = true ∧ isFinite k.c1 = true ∧
    (∀ ty s x, isFinite s = true → fLe 0xC9800000#32 x = true → fLe x 0x49800000#32 = true →
      isFinite (sec1 machineFilter ty s x k).s = true ∧ isFinite (sec1 machineFilter ty s x k).y = true) ∧
    (∀ ty, sec1 machineFilter ty 0x00000000#32 0x00000000#32 k = ⟨0x00000000#32, 0x00000000#32⟩) ∧
    (∀ z ty, fLe 0x3C23D70A#32 z = true → fLe z 0x3F34FDF4#32 = true →
      let k := fd2 machineFilter T fc z ty
      isFinite k.c0 = true ∧ isFinite k.c1 = true ∧ isFinite k.c2 = true ∧ isFinite k.c3 = true ∧
      (∀ s x, isFinite s.s1 = true → isFinite s.s2 = true → fLe 0xC9800000#32 x = true → fLe x 0x49800000#32 = true →
        let r := sec2 machineFilter ty s x k
        isFinite r.s.s1 = true ∧ isFinite r.s.s2 = true ∧ isFinite r.y = true) ∧
      sec2 machineFilter ty ⟨0x00000000#32, 0x00000000#32⟩ 0x00000000#32 k =
        ⟨⟨0x00000000#32, 0x00000000#32⟩, 0x00000000#32⟩)) ∧
  (∀ fc, fLe 0x41A00000#32 fc = true → fLe fc 0x469C4000#32 = true → ∀ n, 4800 ≤ n →
    let k := fd1 machineFilter 0x37AEC33E#32 fc
    fLe (fAbs (fSub (output1 machineFilter .lp k (fun _ => 0x3F800000#32) n) 0x3F800000#32)) 0x3A83126F#32 = true ∧
    fLe (fAbs (output1 machineFilter .hp k (fun _ => 0x3F800000#32) n)) 0x3A83126F#32 = true) ∧
  (∀ z, fLe 0x3C23D70A#32 z = true → fLe z 0x3F34FDF4#32 = true →
    let k := fd2 machineFilter 0x37AEC33E#32 0x42C80000#32 z .lp
    let single := output2 machineFilter .lp k tone
    let cascaded := output2 machineFilter .lp k single
    (∃ settled, ∀ n, settled ≤ n → fLt (fAbs (single n)) 0x3C23D70A#32 = true) ∧
    (∃ peak settled : Nat, (∀ n, ∃ m, n ≤ m ∧ peak ≤ mag (single m)) ∧
      ∀ n, settled ≤ n → 2 * mag (cascaded n) < peak))

/-- R107: for every word, `wrap01` gives a number in [0, 1), and never -0.0. -/
def Obligations.WrapStaysInUnitInterval : Prop :=
  ∀ x : F32, fLe 0x00000000#32 (wrap01 x) = true ∧ fLt (wrap01 x) 0x3F800000#32 = true ∧ signBit (wrap01 x) = false

/-- R109: `soft_clip` is odd, bit for bit, on every number. -/
def Obligations.SoftClipIsOdd : Prop :=
  ∀ x : F32, isNaN x = false → softClip (fNeg x) = fNeg (softClip x)

/-- R151: the symmetric fold of every finite number lies in [-1, 1]. -/
def Obligations.SymmetricFoldBounded : Prop :=
  ∀ d : F32, isFinite d = true → fLe 0xBF800000#32 (fold0 d) = true ∧ fLe (fold0 d) 0x3F800000#32 = true

/-- The source's test bound in R154, for an input of magnitude at most 2 and an amount in (0, 1]: every fold type stays
within [-1.01, 1.01]. R154 infers the tighter 1 + 2^-23 for every finite x, which fails where the driven value overflows
(log entry 5). -/
def Obligations.FoldOutputBounded : Prop :=
  ∀ (x amount : F32) (ty : FoldType), fLe (fAbs x) 0x40000000#32 = true → fLt 0x00000000#32 amount = true →
    fLe amount 0x3F800000#32 = true → fLe (fAbs (waveFold x amount ty)) 0x3F8147AE#32 = true

/-- R139: at the two interior thresholds the morph is exactly the triangle and exactly the corrected saw. -/
def Obligations.WarpExactAtThresholds : Prop :=
  ∀ (c : Config) (p dt : F32), legalPhase p = true → isFinite dt = true → fLe 0x00000000#32 dt = true →
    waveWarp c p 0x3EAAAAAB#32 dt = triWave p ∧ waveWarp c p 0x3F2AAAAB#32 dt = sawBlep p dt

/-! ## Whole-machine rules -/

/-- R300, R306: nothing stops the block: whatever its state and whatever waits on the bus, every number of steps runs. -/
def Obligations.BlockNeverStops : Prop :=
  ∀ (n : Nat) (s : State), ∃ t, Sys2Proof.core.run n s = .next t

/-- R303, R307: an error bit is set only by its own cause, and cleared only by a STATUS write of a 1 or a reset. -/
def Obligations.StatusBitsHaveOneCause : Prop :=
  ∀ (s t : State) (e : HostEvent) (rest : List HostEvent), s.bus = e :: rest → step s = .next t →
    (s.status.errCmd = false → t.status.errCmd = true →
      ∃ w, e = .write .w32 0x1F8#9 w ∧ ∀ i, decode w ≠ .legal i) ∧
    (s.status.errCmd = true → t.status.errCmd = false →
      e = .reset ∨ ∃ v, e = .write .w32 0x1FC#9 v ∧ v.getLsbD 0 = true) ∧
    (s.status.errBus = false → t.status.errBus = true →
      ∃ w a, IllegalAccess w a ∧ (e = .read w a ∨ ∃ v, e = .write w a v)) ∧
    (s.status.errBus = true → t.status.errBus = false →
      e = .reset ∨ ∃ v, e = .write .w32 0x1FC#9 v ∧ v.getLsbD 1 = true)

/-- R165: an accumulator changes only by SYN_STEP, SYN_RESET_OPS, SYN_RESET, a host write of it, or a reset. -/
def Obligations.PhaseChangesOnlyByItsWriters : Prop :=
  ∀ (s t : State) (i : Fin 4), step s = .next t → readReg t (.opPhase i) ≠ readReg s (.opPhase i) →
    ∃ e rest, s.bus = e :: rest ∧
      (e = .write .w32 0x1F8#9 0x00000001#32 ∨ e = .write .w32 0x1F8#9 0x00000002#32 ∨
        e = .write .w32 0x1F8#9 0x00000004#32 ∨ (∃ v, e = .write .w32 (regAddr (.opPhase i)) v) ∨ e = .reset)

/-- R27, R30: SYN_OUT changes only by SYN_STEP or a reset, FLT_OUT and FLT_LAST_MODE only by FLT_STEP or a reset. -/
def Obligations.OutputsWrittenOnlyByTheirStep : Prop :=
  ∀ (s t : State), step s = .next t →
    (readReg t .synOut ≠ readReg s .synOut →
      ∃ e rest, s.bus = e :: rest ∧ (e = .write .w32 0x1F8#9 0x00000001#32 ∨ e = .reset)) ∧
    (readReg t .fltOut ≠ readReg s .fltOut ∨ readReg t .fltLastMode ≠ readReg s .fltLastMode →
      ∃ e rest, s.bus = e :: rest ∧ (e = .write .w32 0x1F8#9 0x00000010#32 ∨ e = .reset))

/-- R262: a synth command neither reads nor writes the filter's registers or STATUS, and a filter command neither the
synth's registers, the ROM nor STATUS: with others in their place, its effect is the same and they stay. -/
def Obligations.EnginesShareNoState : Prop :=
  ∀ (s : State) (F : Filter) (P : Synth) (rom : Vector Word 11) (st : Status),
    (∀ i ∈ [Instr.synStep, .synResetOps, .synResetDcb, .synReset], ∃ t, exec i s = .next t ∧
      exec i { s with flt := F, status := st } = .next { t with flt := F, status := st }) ∧
    (∀ i ∈ [Instr.fltStep, .fltReset], ∃ t, exec i s = .next t ∧
      exec i { s with syn := P, algRom := rom, status := st } =
        .next { t with syn := P, algRom := rom, status := st })

/-- The register invariant holds at reset (R330). -/
def Obligations.RegisterInvAtReset : Prop := RegisterInv State.reset

/-- The register invariant is kept by every step from every state (R21, R107, R231, R261, R340): parameters in range,
phases in [0, 1), section states and FLT_OUT finite, ROM intact. It is so for every instantiation that meets R231: on
path CAS, where section A's output may be beyond the range R231 speaks of, by the model's reading of R261 (log entry 20). -/
def Obligations.StepKeepsRegisterInv : Prop :=
  ∀ (s t : State), RegisterInv s → step s = .next t → RegisterInv t

/-- R21, R231: whatever a host issues and whenever, the register invariant holds in every state the block can reach. That
section B's states and FLT_OUT stay finite on path CAS where section A's output is beyond the range R231 speaks of is the
model's reading of R261 (log entry 20, DEDUCED). -/
def Obligations.ReachableStatesKeepRegisterInv : Prop :=
  ∀ (s : State), Reachable s → RegisterInv s

/-- The part of R101 that holds for every state a host can set up: the operators' outputs and the DC blocker's input
stay finite, in every step from every legal state. -/
def Obligations.SynthOutputsStayFinite : Prop :=
  ∀ (s t : State), RegisterInv s → SynthFinite s → step s = .next t → SynthFinite t

/-! ## The host's side and several instances -/

/-- R282 to R284, R287: the host's conversions at the values the spec fixes, and the resonance curve off the straight line
somewhere (the model's measure of non-linear is log entry 12). -/
def Obligations.HostConversionsAtFixedPoints : Prop :=
  voctToMult machineConfig 0x00000000#32 = 0x3F800000#32 ∧ voctToMult machineConfig 0x3F800000#32 = 0x40000000#32 ∧
  voctToFreq machineConfig f0Syn 0x00000000#32 = 0x4382D013#32 ∧
  voctToFreq machineConfig f0Syn 0x3F800000#32 = 0x4402D013#32 ∧
  voctToFreq machineConfig f0Flt 0x00000000#32 = 0x4382D0A4#32 ∧
  voctToFreq machineConfig f0Flt 0x3F800000#32 = 0x4402D0A4#32 ∧
  machineConfig.resCurve 0x00000000#32 = 0x3F34FDF4#32 ∧ machineConfig.resCurve 0x3F800000#32 = 0x3C23D70A#32 ∧
  (∃ r, fLe 0x00000000#32 r = true ∧ fLe r 0x3F800000#32 = true ∧
    (isFinite (machineConfig.resCurve r) = false ∨ 2 ^ 275 < lineDistance r (machineConfig.resCurve r)))

/-- R313: a step of one instance leaves every other instance of the system as it is. -/
def Obligations.InstancesAreIndependent : Prop :=
  ∀ (k j : Nat) (sys : List Instance), ∃ sys', stepInstance k sys = .next sys' ∧ sys'.length = sys.length ∧
    (j ≠ k → sys'[j]? = sys[j]?)

/-! ## The structure of the filter's designers and sections -/

/-- R221, R223, R225 to R227, over any parameters: a rate below the threshold takes the reference sigma, any other (one
at the threshold among them) the rational one; the one-pole types share the state update and have an output function each; the two-pole types
share theirs, and LP, NOTCH and AP have one output function and HP and BP the other. -/
def Obligations.DesignersAndSectionsHaveSpecStructure : Prop :=
  ∀ (c : Config) (T fc z : F32) (ty : FilterType),
    let f := c.toFilterParts
    let w := c.wFn T fc
    let w2 := fMul w w
    (fLt w c.wTh1 = true →
      fd1 f T fc = c.coef1 w c.sigmaRef1 (fSqrt (fAdd w2 (fMul c.sigmaRef1 c.sigmaRef1)))) ∧
    (fLe c.wTh1 w = true ∨ isNaN w = true ∨ isNaN c.wTh1 = true →
      fd1 f T fc = c.coef1 w (c.sigmaRat1 w2) (fSqrt (fAdd w2 (fMul (c.sigmaRat1 w2) (c.sigmaRat1 w2))))) ∧
    (fLt w c.wTh2 = true →
      let m := c.tvk2 w c.sigmaRef2 z
      fd2 f T fc z ty = c.coef2 m.t m.v m.k ty) ∧
    (fLe c.wTh2 w = true ∨ isNaN w = true ∨ isNaN c.wTh2 = true →
      let m := c.tvk2 w (c.sigmaRat2 w2) z
      fd2 f T fc z ty = c.coef2 m.t m.v m.k ty) ∧
    (∀ s x k, sec1 f .lp s x k = ⟨c.u1 s x k, c.y1Lp s x k⟩ ∧ sec1 f .hp s x k = ⟨c.u1 s x k, c.y1Hp s x k⟩) ∧
    (∀ s x k, (sec2 f ty s x k).s = c.u2 s.s1 s.s2 x k) ∧
    (∀ s x k, ty ∈ [FilterType.lp, .notch, .ap] → (sec2 f ty s x k).y = c.yA ty s.s1 s.s2 x k) ∧
    (∀ s x k, ty ∈ [FilterType.hp, .bp] → (sec2 f ty s x k).y = c.yB ty s.s1 s.s2 x k)
end

