-- ==== Sys2Proof/Laws/Float.lean ====
section
/-! SUPPORT. The small lemmas of the binary32 encoding: what packing and negating do to the fields, and that a value is
rebuilt from its sign and its low bits. -/

namespace Sys2Proof

theorem signBit_eq (x : F32) : signBit x = decide (2 ^ 31 ≤ x.toNat) := by
  have h := x.isLt
  simp only [signBit, BitVec.getLsbD, Nat.testBit_eq_decide_div_mod_eq]
  congr 1
  simp only [eq_iff_iff]
  omega

theorem packF_toNat (neg : Bool) (bits : Nat) (h : bits < 2 ^ 31) :
    (packF neg bits).toNat = (if neg then 2 ^ 31 else 0) + bits := by
  simp only [packF, BitVec.toNat_ofNat]
  split <;> omega

theorem expField_packF (neg : Bool) (bits : Nat) (h : bits < 2 ^ 31) :
    expField (packF neg bits) = bits / 2 ^ 23 := by
  rw [expField, packF_toNat neg bits h]
  split <;> omega

theorem fracField_packF (neg : Bool) (bits : Nat) (h : bits < 2 ^ 31) :
    fracField (packF neg bits) = bits % 2 ^ 23 := by
  rw [fracField, packF_toNat neg bits h]
  split <;> omega

theorem signBit_packF (neg : Bool) (bits : Nat) (h : bits < 2 ^ 31) : signBit (packF neg bits) = neg := by
  rw [signBit_eq, packF_toNat neg bits h]
  cases neg
  · simpa using h
  · simp

theorem roundMag_le (num den : Nat) : roundMag num den ≤ 0x7F800000 := Nat.min_le_right _ _

theorem roundMag_lt (num den : Nat) : roundMag num den < 2 ^ 31 :=
  Nat.lt_of_le_of_lt (roundMag_le num den) (by decide)

@[simp] theorem signBit_roundF (neg : Bool) (num den : Nat) : signBit (roundF neg num den) = neg :=
  signBit_packF _ _ (roundMag_lt _ _)

/-- Rounding never gives a NaN. -/
@[simp] theorem isNaN_roundF (neg : Bool) (num den : Nat) : isNaN (roundF neg num den) = false := by
  have h := roundMag_le num den
  simp only [isNaN, roundF, expField_packF _ _ (roundMag_lt _ _), fracField_packF _ _ (roundMag_lt _ _),
    Bool.and_eq_false_iff, beq_eq_false_iff_ne, bne_eq_false_iff_eq]
  omega

theorem lowBits_lt (x : F32) : x.toNat % 2 ^ 31 < 2 ^ 31 := Nat.mod_lt _ (by decide)

/-- A value is its sign and its low 31 bits. -/
theorem packF_self (x : F32) : packF (signBit x) (x.toNat % 2 ^ 31) = x := by
  have h := x.isLt
  apply BitVec.eq_of_toNat_eq
  rw [packF_toNat _ _ (lowBits_lt x), signBit_eq]
  by_cases hs : 2 ^ 31 ≤ x.toNat <;> simp only [hs, decide_true, decide_false, if_true] <;> simp <;> omega

@[simp] theorem expField_fNeg (x : F32) : expField (fNeg x) = expField x := by
  rw [fNeg, expField_packF _ _ (lowBits_lt x), expField]; omega

@[simp] theorem fracField_fNeg (x : F32) : fracField (fNeg x) = fracField x := by
  rw [fNeg, fracField_packF _ _ (lowBits_lt x), fracField]; omega

@[simp] theorem signBit_fNeg (x : F32) : signBit (fNeg x) = !signBit x := signBit_packF _ _ (lowBits_lt x)

@[simp] theorem expField_fAbs (x : F32) : expField (fAbs x) = expField x := by
  rw [fAbs, expField_packF _ _ (lowBits_lt x), expField]; omega

@[simp] theorem fracField_fAbs (x : F32) : fracField (fAbs x) = fracField x := by
  rw [fAbs, fracField_packF _ _ (lowBits_lt x), fracField]; omega

@[simp] theorem signBit_fAbs (x : F32) : signBit (fAbs x) = false := signBit_packF _ _ (lowBits_lt x)

@[simp] theorem mag_fNeg (x : F32) : mag (fNeg x) = mag x := by simp [mag]
@[simp] theorem isNaN_fNeg (x : F32) : isNaN (fNeg x) = isNaN x := by simp [isNaN]
@[simp] theorem isInf_fNeg (x : F32) : isInf (fNeg x) = isInf x := by simp [isInf]
@[simp] theorem isFinite_fNeg (x : F32) : isFinite (fNeg x) = isFinite x := by simp [isFinite]

theorem sval_fNeg (x : F32) : sval (fNeg x) = -sval x := by
  simp only [sval, signBit_fNeg, mag_fNeg]
  cases signBit x <;> simp

@[simp] theorem mag_fAbs (x : F32) : mag (fAbs x) = mag x := by simp [mag]
@[simp] theorem isNaN_fAbs (x : F32) : isNaN (fAbs x) = isNaN x := by simp [isNaN]
@[simp] theorem isFinite_fAbs (x : F32) : isFinite (fAbs x) = isFinite x := by simp [isFinite]

theorem fNeg_toNat_low (x : F32) : (fNeg x).toNat % 2 ^ 31 = x.toNat % 2 ^ 31 := by
  rw [fNeg, packF_toNat _ _ (lowBits_lt x)]
  split <;> omega

theorem fNeg_fNeg (x : F32) : fNeg (fNeg x) = x := by
  rw [fNeg, signBit_fNeg, fNeg_toNat_low, Bool.not_not, packF_self]

/-- A finite number is not a NaN. -/
theorem isNaN_of_isFinite {x : F32} (h : isFinite x = true) : isNaN x = false := by
  simp only [isFinite, bne_iff_ne] at h
  simp [isNaN, h]

/-- A finite number is not an infinity. -/
theorem isInf_of_isFinite {x : F32} (h : isFinite x = true) : isInf x = false := by
  simp only [isFinite, bne_iff_ne] at h
  simp [isInf, h]

/-- Of two words exactly one holds: x < y, or y ≤ x, or one of them is a NaN. -/
theorem fLt_eq_false_iff (x y : F32) : fLt x y = false ↔ fLe y x = true ∨ isNaN x = true ∨ isNaN y = true := by
  cases hx : isNaN x <;> cases hy : isNaN y <;> simp [fLt, fLe, hx, hy]

namespace Machine

/-- What `clampN` answers: the NaN value, or a number that is neither below lo nor above hi, or one of the two. -/
theorem clampN_cases (x lo hi n : F32) :
    (isNaN x = true ∧ clampN x lo hi n = n) ∨ (isNaN x = false ∧ fLt x lo = true ∧ clampN x lo hi n = lo) ∨
      (isNaN x = false ∧ fLt x lo = false ∧ fLt hi x = true ∧ clampN x lo hi n = hi) ∨
      (isNaN x = false ∧ fLt x lo = false ∧ fLt hi x = false ∧ clampN x lo hi n = x) := by
  unfold clampN
  cases isNaN x <;> cases fLt x lo <;> cases fLt hi x <;> simp

/-- The flush leaves no subnormal. -/
theorem isSubnormal_flushDenormal (x : F32) : isSubnormal (flushDenormal x) = false := by
  unfold flushDenormal
  split
  · decide
  · next h => simpa using h

/-- The flush keeps a number finite. -/
theorem isFinite_flushDenormal {x : F32} (h : isFinite x = true) : isFinite (flushDenormal x) = true := by
  unfold flushDenormal
  split
  · decide
  · exact h

end Machine

end Sys2Proof
end

