-- ==== Sys2Proof/Laws/State.lean ====
section
/-! SUPPORT. One lemma per field per update, true by rfl, so that no proof unfolds a record update. -/

namespace Sys2Proof.Machine

variable (s : State)

@[simp] theorem raiseError_syn (c : Cause) : (raiseError c s).syn = s.syn := by cases c <;> rfl
@[simp] theorem raiseError_flt (c : Cause) : (raiseError c s).flt = s.flt := by cases c <;> rfl
@[simp] theorem raiseError_algRom (c : Cause) : (raiseError c s).algRom = s.algRom := by cases c <;> rfl
@[simp] theorem raiseError_bus (c : Cause) : (raiseError c s).bus = s.bus := by cases c <;> rfl
@[simp] theorem raiseError_answer (c : Cause) : (raiseError c s).answer = s.answer := by cases c <;> rfl
@[simp] theorem raiseError_freeIdx (c : Cause) : (raiseError c s).freeIdx = s.freeIdx := by cases c <;> rfl
@[simp] theorem raiseError_illegalCommand_status :
    (raiseError .illegalCommand s).status = { s.status with errCmd := true } := rfl
@[simp] theorem raiseError_busError_status :
    (raiseError .busError s).status = { s.status with errBus := true } := rfl

@[simp] theorem setErrCmd_errCmd (t : Status) : t.setErrCmd.errCmd = true := rfl
@[simp] theorem setErrCmd_errBus (t : Status) : t.setErrCmd.errBus = t.errBus := rfl
@[simp] theorem setErrBus_errCmd (t : Status) : t.setErrBus.errCmd = t.errCmd := rfl
@[simp] theorem setErrBus_errBus (t : Status) : t.setErrBus.errBus = true := rfl
@[simp] theorem writeOneToClear_errCmd (t : Status) (v : Word) :
    (t.writeOneToClear v).errCmd = (t.errCmd && !v.getLsbD 0) := rfl
@[simp] theorem writeOneToClear_errBus (t : Status) (v : Word) :
    (t.writeOneToClear v).errBus = (t.errBus && !v.getLsbD 1) := rfl

@[simp] theorem setOp_flt (i : Fin 4) (f : Operator → Operator) : (setOp s i f).flt = s.flt := rfl
@[simp] theorem setOp_algRom (i : Fin 4) (f : Operator → Operator) : (setOp s i f).algRom = s.algRom := rfl
@[simp] theorem setOp_status (i : Fin 4) (f : Operator → Operator) : (setOp s i f).status = s.status := rfl
@[simp] theorem setOp_bus (i : Fin 4) (f : Operator → Operator) : (setOp s i f).bus = s.bus := rfl
@[simp] theorem setOp_answer (i : Fin 4) (f : Operator → Operator) : (setOp s i f).answer = s.answer := rfl
@[simp] theorem setOp_freeIdx (i : Fin 4) (f : Operator → Operator) : (setOp s i f).freeIdx = s.freeIdx := rfl
@[simp] theorem setOp_ctrl (i : Fin 4) (f : Operator → Operator) : (setOp s i f).syn.ctrl = s.syn.ctrl := rfl
@[simp] theorem setOp_ops (i : Fin 4) (f : Operator → Operator) :
    (setOp s i f).syn.ops = s.syn.ops.set i (f s.syn.ops[i]) := rfl

@[simp] theorem hardwareReset_syn : (hardwareReset s).syn = Synth.reset := rfl
@[simp] theorem hardwareReset_flt : (hardwareReset s).flt = Filter.reset := rfl
@[simp] theorem hardwareReset_algRom : (hardwareReset s).algRom = State.reset.algRom := rfl
@[simp] theorem hardwareReset_status : (hardwareReset s).status = State.reset.status := rfl
@[simp] theorem hardwareReset_bus : (hardwareReset s).bus = s.bus := rfl
@[simp] theorem hardwareReset_freeIdx : (hardwareReset s).freeIdx = s.freeIdx := rfl

@[simp] theorem withFetchWord_bus (n w : Nat) :
    (s.withFetchWord n w).bus = .write .w32 (regAddr .cmd) (BitVec.ofNat 32 w) :: s.bus := rfl
@[simp] theorem withFetchWord_syn (n w : Nat) : (s.withFetchWord n w).syn = s.syn := rfl
@[simp] theorem withFetchWord_flt (n w : Nat) : (s.withFetchWord n w).flt = s.flt := rfl
@[simp] theorem withFetchWord_algRom (n w : Nat) : (s.withFetchWord n w).algRom = s.algRom := rfl
@[simp] theorem withFetchWord_status (n w : Nat) : (s.withFetchWord n w).status = s.status := rfl

@[simp] theorem synStep_flt (c : Config) : (synStep c s).flt = s.flt := rfl
@[simp] theorem synStep_algRom (c : Config) : (synStep c s).algRom = s.algRom := rfl
@[simp] theorem synStep_status (c : Config) : (synStep c s).status = s.status := rfl
@[simp] theorem synStep_bus (c : Config) : (synStep c s).bus = s.bus := rfl
@[simp] theorem synStep_answer (c : Config) : (synStep c s).answer = s.answer := rfl
@[simp] theorem synStep_freeIdx (c : Config) : (synStep c s).freeIdx = s.freeIdx + 1 := rfl
@[simp] theorem fltStep_syn (c : Config) : (fltStep c s).syn = s.syn := rfl
@[simp] theorem fltStep_algRom (c : Config) : (fltStep c s).algRom = s.algRom := rfl
@[simp] theorem fltStep_status (c : Config) : (fltStep c s).status = s.status := rfl
@[simp] theorem fltStep_bus (c : Config) : (fltStep c s).bus = s.bus := rfl
@[simp] theorem fltStep_answer (c : Config) : (fltStep c s).answer = s.answer := rfl
@[simp] theorem fltStep_freeIdx (c : Config) : (fltStep c s).freeIdx = s.freeIdx + 1 := rfl

variable (P : Synth) (k : Nat) (r : SynResult)

@[simp] theorem synStore_ctrl : (synStore P k r).ctrl = P.ctrl := rfl
@[simp] theorem synStore_modDepth : (synStore P k r).modDepth = P.modDepth := rfl
@[simp] theorem synStore_pmDepth : (synStore P k r).pmDepth = P.pmDepth := rfl
@[simp] theorem synStore_gain : (synStore P k r).gain = P.gain := rfl
@[simp] theorem synStore_baseFreq : (synStore P k r).baseFreq = P.baseFreq := rfl
@[simp] theorem synStore_dt : (synStore P k r).dt = P.dt := rfl
@[simp] theorem synStore_extIn : (synStore P k r).extIn = P.extIn := rfl
@[simp] theorem synStore_dcbX1 : (synStore P k r).dcbX1 = sealNaN k .dcbX1 r.dcbX1 := rfl
@[simp] theorem synStore_dcbY1 : (synStore P k r).dcbY1 = sealNaN k .dcbY1 r.dcbY1 := rfl
@[simp] theorem synStore_out : (synStore P k r).out = sealNaN k .synOut r.out := rfl

@[simp] theorem synStore_op (i : Fin 4) :
    (synStore P k r).ops[i] =
      { P.ops[i] with
        phase := sealNaN k (.opPhase i) r.voices[i].phase
        prev := sealNaN k (.opPrev i) r.voices[i].prev } := by
  simp [synStore]

@[simp] theorem opVoices_get (i : Fin 4) : (opVoices P)[i] = { phase := P.ops[i].phase, prev := P.ops[i].prev } := by
  simp [opVoices]

@[simp] theorem zeroOps_op (i : Fin 4) : (zeroOps P).ops[i] = { P.ops[i] with phase := zeroF, prev := zeroF } := by
  simp [zeroOps]

@[simp] theorem zeroDcb_ops : (zeroDcb P).ops = P.ops := rfl

variable (F : Filter)

@[simp] theorem zeroSections_mode : (zeroSections F).mode = F.mode := rfl
@[simp] theorem zeroSections_lastMode : (zeroSections F).lastMode = F.lastMode := rfl
@[simp] theorem zeroSections_out : (zeroSections F).out = F.out := rfl
@[simp] theorem zeroSections_f1S : (zeroSections F).f1S = zeroF := rfl
@[simp] theorem zeroSections_f2aS1 : (zeroSections F).f2aS1 = zeroF := rfl
@[simp] theorem zeroSections_f2aS2 : (zeroSections F).f2aS2 = zeroF := rfl
@[simp] theorem zeroSections_f2bS1 : (zeroSections F).f2bS1 = zeroF := rfl
@[simp] theorem zeroSections_f2bS2 : (zeroSections F).f2bS2 = zeroF := rfl

@[simp] theorem modeChange_mode : (modeChange F).mode = F.mode := by unfold modeChange; split <;> rfl
@[simp] theorem modeChange_cutoff : (modeChange F).cutoff = F.cutoff := by unfold modeChange; split <;> rfl
@[simp] theorem modeChange_damp : (modeChange F).damp = F.damp := by unfold modeChange; split <;> rfl
@[simp] theorem modeChange_drive : (modeChange F).drive = F.drive := by unfold modeChange; split <;> rfl
@[simp] theorem modeChange_dt : (modeChange F).dt = F.dt := by unfold modeChange; split <;> rfl
@[simp] theorem modeChange_input : (modeChange F).input = F.input := by unfold modeChange; split <;> rfl
@[simp] theorem modeChange_out : (modeChange F).out = F.out := by unfold modeChange; split <;> rfl
@[simp] theorem modeChange_lastMode : (modeChange F).lastMode = F.mode := by
  unfold modeChange; split
  · next h => exact h.symm
  · rfl

end Sys2Proof.Machine
end

