-- ==== Sys2Proof/Laws/Ops.lean ====
section
/-! SUPPORT. What each shared operation can do, said once: the register map, storing and reading a register, raising an
error, and the shape of one step. -/

namespace Sys2Proof.Machine

/-! ## The register map -/

/-- Every register is in the list, and its address leads back to it. -/
theorem regAt_regAddr (r : Reg) : regAt (regAddr r) = some r := by
  cases r with
  | opCoarse i | opFine i | opLevel i | opWarp i | opFold i | opFeedback i | opPhase i | opPrev i | algRom i =>
    revert i; decide
  | _ => decide

/-- The register found at an address has that address. -/
theorem regAddr_of_regAt {a : Addr} {r : Reg} (h : regAt a = some r) : regAddr r = a := by
  have := List.find?_some h
  simpa using this

theorem regAddr_injective {r q : Reg} (h : regAddr r = regAddr q) : r = q := by
  have := regAt_regAddr r
  rw [h, regAt_regAddr q] at this
  exact (Option.some.inj this).symm

@[simp] theorem busRead_regAddr (s : State) (r : Reg) : busRead s (regAddr r) = readReg s r := by
  simp [busRead, regAt_regAddr]

/-- What a bus read returns: the register's value, or 0 where there is none. -/
theorem busRead_cases (s : State) (a : Addr) :
    (∃ r, regAddr r = a ∧ busRead s a = readReg s r) ∨ (regAt a = none ∧ busRead s a = 0#32) := by
  cases h : regAt a with
  | none => exact .inr ⟨rfl, by simp [busRead, h]⟩
  | some r => exact .inl ⟨r, regAddr_of_regAt h, by simp [busRead, h]⟩

/-- Registers that read alike read alike byte by byte. -/
theorem bytesSameOutside_of_regs {rs : List Reg} {s t : State} (h : ∀ r, r ∉ rs → readReg t r = readReg s r) :
    BytesSameOutside rs s t := by
  intro a ha
  have : busRead t (a &&& 0x1FC#9) = busRead s (a &&& 0x1FC#9) := by
    unfold busRead
    cases hr : regAt (a &&& 0x1FC#9) with
    | none => rfl
    | some r => exact h r fun hm => ha r hm (regAddr_of_regAt hr).symm
  simp [hostByte, this]

/-! ## Control words -/

theorem foldTypeNum_le (t : FoldType) : foldTypeNum t ≤ 2 := by cases t <;> decide

@[simp] theorem foldTypeOf_foldTypeNum (t : FoldType) : foldTypeOf (foldTypeNum t) = t := by cases t <;> rfl

/-- SYN_CTRL's word holds each field in its bits. -/
theorem synCtrlWord_toNat (c : SynCtrl) :
    (synCtrlWord c).toNat = c.alg.val + c.fmode.toNat * 2 ^ 4 + foldTypeNum c.ftype[0] * 2 ^ 8
      + foldTypeNum c.ftype[1] * 2 ^ 10 + foldTypeNum c.ftype[2] * 2 ^ 12 + foldTypeNum c.ftype[3] * 2 ^ 14 := by
  have h0 := foldTypeNum_le c.ftype[0]
  have h1 := foldTypeNum_le c.ftype[1]
  have h2 := foldTypeNum_le c.ftype[2]
  have h3 := foldTypeNum_le c.ftype[3]
  have ha := c.alg.isLt
  have hf := c.fmode.isLt
  simp only [synCtrlWord, BitVec.toNat_ofNat]
  omega

/-- Writing back what SYN_CTRL reads stores the same fields. -/
@[simp] theorem synCtrlOf_synCtrlWord (c : SynCtrl) : synCtrlOf (synCtrlWord c) = c := by
  have h0 := foldTypeNum_le c.ftype[0]
  have h1 := foldTypeNum_le c.ftype[1]
  have h2 := foldTypeNum_le c.ftype[2]
  have h3 := foldTypeNum_le c.ftype[3]
  have ha := c.alg.isLt
  have hf := c.fmode.isLt
  have e := synCtrlWord_toNat c
  have hfield : ∀ i : Fin 4, (synCtrlWord c).toNat / 2 ^ (8 + 2 * i.val) % 2 ^ 2 = foldTypeNum c.ftype[i] := by
    intro i
    fin_cases i <;> simp only [e] <;> simp <;> omega
  obtain ⟨alg, fmode, ftype⟩ := c
  simp only [synCtrlOf, SynCtrl.mk.injEq]
  refine ⟨?_, ?_, ?_⟩
  · have hm : (synCtrlWord ⟨alg, fmode, ftype⟩).toNat % 2 ^ 4 = alg.val := by rw [e]; simp only at ha ⊢; omega
    apply Fin.ext
    simp only [hm]
    simp only at ha
    omega
  · apply BitVec.eq_of_toNat_eq; simp only [BitVec.toNat_ofNat]; simp only at hf e h0 h1 h2 h3 ha; omega
  · ext i hi
    have := hfield ⟨i, hi⟩
    simp only [Vector.getElem_ofFn]
    rw [this]
    simp

@[simp] theorem modeOf_modeWord (m : Fin 12) : modeOf (modeWord m) = m := by
  revert m; decide

/-! ## Storing a register -/

/-- A host-writable register: a parameter or a state register. -/
def hostWritable (r : Reg) : Prop := regKind r = .parameter ∨ regKind r = .state

/-- A stored sanitized value is read back (R21). -/
theorem readReg_setReg_same (s : State) {r : Reg} (h : hostWritable r) (v : Word) :
    readReg (setReg s r (sanitize r v)) r = sanitize r v := by
  cases r <;> first
    | rfl
    | (simp [readReg, setReg, setOp, sanitize]; done)
    | exact absurd h (by simp [hostWritable, regKind])

/-- Storing one register leaves every other one. -/
theorem readReg_setReg_other (s : State) {r q : Reg} (h : q ≠ r) (v : Word) : readReg (setReg s r v) q = readReg s q := by
  cases r with
  | opCoarse i | opFine i | opLevel i | opWarp i | opFold i | opFeedback i | opPhase i | opPrev i =>
    cases q with
    | opCoarse j | opFine j | opLevel j | opWarp j | opFold j | opFeedback j | opPhase j | opPrev j =>
      by_cases hij : i = j
      · subst hij
        first
        | exact absurd rfl h
        | simp [readReg, setReg, setOp]
      · have hv : i.val ≠ j.val := fun e => hij (Fin.ext e)
        simp [readReg, setReg, setOp, hv]
    | _ => rfl
  | _ =>
    cases q <;> first
      | rfl
      | exact absurd rfl h

@[simp] theorem setReg_bus (s : State) (r : Reg) (v : Word) : (setReg s r v).bus = s.bus := by cases r <;> rfl
@[simp] theorem setReg_answer (s : State) (r : Reg) (v : Word) : (setReg s r v).answer = s.answer := by cases r <;> rfl
@[simp] theorem setReg_freeIdx (s : State) (r : Reg) (v : Word) : (setReg s r v).freeIdx = s.freeIdx := by cases r <;> rfl
@[simp] theorem setReg_status (s : State) (r : Reg) (v : Word) : (setReg s r v).status = s.status := by cases r <;> rfl
@[simp] theorem setReg_algRom (s : State) (r : Reg) (v : Word) : (setReg s r v).algRom = s.algRom := by cases r <;> rfl

/-- What a host's register write can do (R64). -/
theorem hostWriteReg_cases (s : State) (r : Reg) (v : Word) :
    (hostWritable r ∧ hostWriteReg s r v = setReg s r (sanitize r v)) ∨
      (r = .status ∧ hostWriteReg s r v = { s with status := s.status.writeOneToClear v }) ∨
      (¬ hostWritable r ∧ r ≠ .status ∧ hostWriteReg s r v = s) := by
  cases r <;> simp [hostWriteReg, hostWritable, regKind]

/-! ## The commands and the step -/

/-- Every command runs: what each one's next state is. -/
theorem exec_cases (i : Instr) (s : State) :
    (i = .nop ∧ exec i s = .next s) ∨
      (i = .synStep ∧ exec i s = .next (synStep machineConfig s)) ∨
      (i = .synResetOps ∧ exec i s = .next { s with syn := zeroOps s.syn }) ∨
      (i = .synResetDcb ∧ exec i s = .next { s with syn := zeroDcb s.syn }) ∨
      (i = .synReset ∧ exec i s = .next { s with syn := zeroDcb (zeroOps s.syn) }) ∨
      (i = .fltStep ∧ exec i s = .next (fltStep machineConfig s)) ∨
      (i = .fltReset ∧ exec i s = .next { s with flt := zeroSections s.flt }) := by
  cases i <;> simp [exec, execNop, execSynStep, execSynResetOps, execSynResetDcb, execSynReset, execFltStep, execFltReset]

/-- What an aligned bus write can do: run a command, raise IllegalCommand, write a register, or nothing. -/
theorem busWrite_cases (a : Addr) (v : Word) (s : State) :
    (∃ i, a = regAddr .cmd ∧ decode v = .legal i ∧ busWrite a v s = exec i s) ∨
      (∃ e, a = regAddr .cmd ∧ decode v = .illegal e ∧ busWrite a v s = .next (raiseError .illegalCommand s)) ∨
      (∃ r, r ≠ .cmd ∧ a = regAddr r ∧ busWrite a v s = .next (hostWriteReg s r v)) ∨
      (regAt a = none ∧ busWrite a v s = .next s) := by
  cases h : regAt a with
  | none => exact .inr (.inr (.inr ⟨rfl, by simp [busWrite, h]⟩))
  | some r =>
    have ha := (regAddr_of_regAt h).symm
    by_cases hr : r = .cmd
    · subst hr
      cases hd : decode v with
      | legal i => exact .inl ⟨i, ha, rfl, by simp [busWrite, h, executeCommand, hd]⟩
      | illegal e => exact .inr (.inl ⟨e, ha, rfl, by simp [busWrite, h, executeCommand, hd]⟩)
    · refine .inr (.inr (.inl ⟨r, hr, ha, ?_⟩))
      unfold busWrite
      rw [h]
      cases r <;> first
        | rfl
        | exact absurd rfl hr

/-- What one step can do: nothing with nothing pending, or perform the oldest access on the state without it. -/
theorem step_cases (s : State) :
    (s.bus = [] ∧ step s = .next s) ∨ (∃ e rest, s.bus = e :: rest ∧ step s = perform e { s with bus := rest }) := by
  cases h : s.bus with
  | nil => exact .inl ⟨rfl, by simp [step, h]⟩
  | cons e rest => exact .inr ⟨e, rest, rfl, by simp [step, h]⟩

/-- What one host event can do. -/
theorem perform_cases (e : HostEvent) (s : State) :
    (∃ a, e = .read .w32 a ∧ aligned a = true ∧ perform e s = .next { s with answer := some (busRead s a) }) ∨
      (∃ w a, e = .read w a ∧ accessWellFormed w a = false ∧
        perform e s = .next { raiseError .busError s with answer := some 0#32 }) ∨
      (∃ a v, e = .write .w32 a v ∧ aligned a = true ∧ perform e s = busWrite a v { s with answer := none }) ∨
      (∃ w a v, e = .write w a v ∧ accessWellFormed w a = false ∧
        perform e s = .next { raiseError .busError s with answer := none }) ∨
      (e = .reset ∧ perform e s = .next (hardwareReset s)) := by
  cases e with
  | read w a =>
    cases h : accessWellFormed w a with
    | false => exact .inr (.inl ⟨w, a, rfl, h, by simp [perform, h]⟩)
    | true =>
      have hw : w = .w32 ∧ aligned a = true := by simpa [accessWellFormed] using h
      obtain ⟨rfl, ha⟩ := hw
      exact .inl ⟨a, rfl, ha, by simp [perform, h]⟩
  | write w a v =>
    cases h : accessWellFormed w a with
    | false => exact .inr (.inr (.inr (.inl ⟨w, a, v, rfl, h, by simp [perform, h]⟩)))
    | true =>
      have hw : w = .w32 ∧ aligned a = true := by simpa [accessWellFormed] using h
      obtain ⟨rfl, ha⟩ := hw
      exact .inr (.inr (.inl ⟨a, v, rfl, ha, by simp [perform, h]⟩))
  | reset => exact .inr (.inr (.inr (.inr ⟨rfl, rfl⟩)))

/-! ## Stored values -/

/-- The free NaN is a NaN, whatever its payload is. -/
theorem isNaN_freeNaN (k : Nat) (r : Reg) : isNaN (freeNaN k r) = true := by
  unfold freeNaN
  simp only
  generalize Config.freeNaNRaw k (regAddr r).toNat = w
  have hw : fracField w < 2 ^ 23 := Nat.mod_lt _ (by decide)
  simp only [isNaN, expField_packF _ _ (show 0x7F800000 + max 1 (fracField w) < 2 ^ 31 by omega),
    fracField_packF _ _ (show 0x7F800000 + max 1 (fracField w) < 2 ^ 31 by omega), Bool.and_eq_true, beq_iff_eq,
    bne_iff_ne]
  omega

/-- A stored computed value: itself, or some NaN for a NaN. -/
theorem stores_sealNaN (k : Nat) (r : Reg) (x : F32) : Stores x (sealNaN k r x) := by
  unfold Stores sealNaN
  split
  · exact isNaN_freeNaN k r
  · rfl

/-- A number that is no NaN is stored as it is. -/
theorem sealNaN_of_not_isNaN {x : F32} (h : isNaN x = false) (k : Nat) (r : Reg) : sealNaN k r x = x := by
  simp [sealNaN, h]

/-! ## The output gain -/

/-- A finite value, or a gain that is not 0, gives R198's product. -/
theorem outputGain_of_finite {y gain : F32} (h : isZeroF gain = false ∨ isFinite y = true) (k : Nat) :
    outputGain k y gain = fMul y gain := by
  rcases h with h | h <;> simp [outputGain, h]

/-- Any other value gives a zero (R199). -/
theorem isZeroF_outputGain_of_not_finite {y gain : F32} (hg : isZeroF gain = true) (hy : isFinite y = false) (k : Nat) :
    isZeroF (outputGain k y gain) = true := by
  simp only [outputGain, hg, hy, Bool.not_false, Bool.and_self, if_true]
  split <;> decide

/-! ## Section B -/

/-- A finite value stands. -/
theorem finiteOr_of_isFinite {v : F32} (h : isFinite v = true) (free : F32) : finiteOr v free = v := by
  simp [finiteOr, h]

/-- What stands is finite. -/
theorem isFinite_finiteOr (v free : F32) : isFinite (finiteOr v free) = true := by
  unfold finiteOr
  split_ifs <;> first | assumption | decide

/-- On an input in [-2^20, 2^20] section B's step is `SEC2`. -/
theorem sectionB_of_legalSample {x : F32} (h : legalSample x = true) (f : FilterParts) (ty : FilterType) (s : Pair)
    (k : Coef2) : sectionB f ty s x k = sec2 f ty s x k := by
  simp [sectionB, h]

/-- On any other input its results are finite, and are those of `SEC2` that are finite there. -/
theorem sectionB_of_beyond {x : F32} (h : legalSample x = false) (f : FilterParts) (ty : FilterType) (s : Pair)
    (k : Coef2) :
    let b := sectionB f ty s x k
    let r := sec2 f ty s x k
    (isFinite b.s.s1 = true ∧ isFinite b.s.s2 = true ∧ isFinite b.y = true) ∧
      (isFinite r.s.s1 = true → b.s.s1 = r.s.s1) ∧ (isFinite r.s.s2 = true → b.s.s2 = r.s.s2) ∧
      (isFinite r.y = true → b.y = r.y) := by
  simp only [sectionB, h, Bool.false_eq_true, if_false]
  exact ⟨⟨isFinite_finiteOr _ _, isFinite_finiteOr _ _, isFinite_finiteOr _ _⟩, fun h => finiteOr_of_isFinite h _,
    fun h => finiteOr_of_isFinite h _, fun h => finiteOr_of_isFinite h _⟩

/-- R261: with parts that meet R231, legal parameters and a finite state, section B's results are finite on every input. -/
theorem isFinite_sectionB {f : FilterParts} (hf : FilterContract f) {T fc zeta : F32} (hT : legalPeriod T = true)
    (hc : legalCutoff fc = true) (hz : legalDamping zeta = true) {s : Pair} (h1 : isFinite s.s1 = true)
    (h2 : isFinite s.s2 = true) (ty : FilterType) (x : F32) :
    let b := sectionB f ty s x (fd2 f T fc zeta ty)
    isFinite b.s.s1 = true ∧ isFinite b.s.s2 = true ∧ isFinite b.y = true := by
  cases h : legalSample x with
  | true => rw [sectionB_of_legalSample h]; exact hf.1.2.2.2 T fc zeta ty s x hT hc hz h1 h2 h
  | false => exact (sectionB_of_beyond h f ty s _).1

end Sys2Proof.Machine
end

