-- ==== Sys2Proof/Laws/PerInstr.lean ====
section
/-! SUPPORT. What holds of every command as syntax, one lemma per constructor. -/

namespace Sys2Proof.Laws.CommandWord

/-- A command is well formed, and its word is a legal command word (R80, R81). -/
def Statement (i : Instr) : Prop := i.wellFormed = true ∧ wordWellFormed (encode i) = true

theorem nop : Statement .nop := ⟨rfl, by decide⟩
theorem synStep : Statement .synStep := ⟨rfl, by decide⟩
theorem synResetOps : Statement .synResetOps := ⟨rfl, by decide⟩
theorem synResetDcb : Statement .synResetDcb := ⟨rfl, by decide⟩
theorem synReset : Statement .synReset := ⟨rfl, by decide⟩
theorem fltStep : Statement .fltStep := ⟨rfl, by decide⟩
theorem fltReset : Statement .fltReset := ⟨rfl, by decide⟩

end Sys2Proof.Laws.CommandWord
end

