-- ==== Sys2Proof/Tests/Reference.lean ====
section
/-! SUPPORT. The NON-NORMATIVE reference instantiation of spec/45_filter_designer.md section 4 (R233, R234), for exercising
the model only: nothing proved with it says anything about the device (R232). The sine, the arcsine and the tangent it
needs are arguments. It is written into the skeleton of R221 and R223 by taking the prewarped rate g as the rate w. -/

namespace Sys2Proof.Tests

open Sys2Proof.Machine

/-- `ref_g(T, fc)` (R233). -/
def refG (ftan : F32 → F32) (T fc : F32) : F32 :=
  let lim := fMul 0x3EFAE148#32 (fDiv oneF T)
  let fcl := if fLt lim fc then lim else fc
  ftan (fMul (fMul 0x40490FDB#32 fcl) T)

/-- `COEF1` of the reference: (G, 1 - G) (R233). -/
def refCoef1 (g _sigma _v : F32) : Coef1 :=
  let G := fDiv g (fAdd oneF g)
  ⟨G, fSub oneF G⟩

/-- `COEF2` of the reference: (a1, a2, a3, k) (R234). -/
def refCoef2 (g _v k : F32) (_ty : FilterType) : Coef2 :=
  let a1 := fDiv oneF (fAdd oneF (fMul g (fAdd g k)))
  let a2 := fMul g a1
  ⟨a1, a2, fMul g a2, k⟩

/-- v1 and v2 of `SEC2_ref` (R234). -/
def refV (s1 s2 x : F32) (c : Coef2) : Pair :=
  let v3 := fSub x s2
  ⟨fAdd (fMul c.c0 s1) (fMul c.c1 v3), fAdd (fAdd s2 (fMul c.c1 s1)) (fMul c.c2 v3)⟩

/-- The output of `SEC2_ref` (R234). -/
def refY (ty : FilterType) (s1 s2 x : F32) (c : Coef2) : F32 :=
  let v := refV s1 s2 x c
  match ty with
  | .lp => v.s2
  | .bp => v.s1
  | .hp => fSub (fSub x (fMul c.c3 v.s1)) v.s2
  | .notch => fSub x (fMul c.c3 v.s1)
  | .ap => fSub x (fMul (fMul twoF c.c3) v.s1)

/-- `SEC1_ref`'s low-pass output (R233). -/
def refLp (s x : F32) (c : Coef1) : F32 := fAdd s (fMul c.c0 (fSub x s))

/-- The reference parameters, with the test table of spec/95_test_vectors.md section 2.4. -/
def refConfig (fsin fasin ftan : F32 → F32) : Config where
  fsin := fsin
  fasin := fasin
  dcbR := Config.dcbRDefault
  extEps := Config.extEpsDefault
  algTable := fun a => if a = 0 then 0x00014210#32 else if a = 8 then 0x000F0000#32
    else if a = 10 then 0x000F7310#32 else 0x00010000#32
  algAllCarriers := 8
  modeTable := Config.modeTableDefault
  wFn := refG ftan
  wTh1 := zeroF
  sigmaRef1 := zeroF
  sigmaRat1 := fun _ => zeroF
  coef1 := refCoef1
  wTh2 := zeroF
  sigmaRef2 := zeroF
  sigmaRat2 := fun _ => zeroF
  tvk2 := fun w _ zeta => ⟨w, zeroF, fMul twoF zeta⟩
  coef2 := refCoef2
  u1 := fun s x c => fAdd (refLp s x c) (fMul c.c0 (fSub x s))
  y1Lp := refLp
  y1Hp := fun s x c => fMul c.c1 (fSub x s)
  u2 := fun s1 s2 x c =>
    let v := refV s1 s2 x c
    ⟨fSub (fMul twoF v.s1) s1, fSub (fMul twoF v.s2) s2⟩
  yA := refY
  yB := refY
  fexp2 := fun _ => oneF
  resCurve := fun _ => zeroF

end Sys2Proof.Tests
end

