-- ==== Sys2Proof/Tests/Slice0.lean ====
section
/-! SUPPORT. The model's own tests. Every expected value is a vector or a worked example of the spec; its place stands
before the test. -/

namespace Sys2Proof.Tests

set_option Elab.async false

open Sys2Proof.Machine

/-! ## Helpers -/

/-- What a step or a command leaves meets p. -/
def leaves (o : Host.Outcome State Fault Refusal) (p : State → Bool) : Bool :=
  match o with
  | .next t => p t
  | .fault _ => false
  | .refused _ => false

/-- The reset state with one access pending. -/
def pending (e : HostEvent) : State := { State.reset with bus := [e] }

/-- The register at a after the access e, from the reset state, is w. -/
def readsAfter (e : HostEvent) (a : Addr) (w : Word) : Bool := leaves (step (pending e)) (fun t => busRead t a == w)

/-- The reset state with both error bits set. -/
def bothErrors : State := { State.reset with status := ⟨true, true⟩ }

/-! ## Decoding: each command's word as R80 and R81 write it (RSV in bits 31:8, OP in bits 7:0) -/

theorem test_decode_nop : decode 0b00000000000000000000000000000000#32 = .legal .nop := by decide
theorem test_decode_syn_step : decode 0b00000000000000000000000000000001#32 = .legal .synStep := by decide
theorem test_decode_syn_reset_ops : decode 0b00000000000000000000000000000010#32 = .legal .synResetOps := by decide
theorem test_decode_syn_reset_dcb : decode 0b00000000000000000000000000000011#32 = .legal .synResetDcb := by decide
theorem test_decode_syn_reset : decode 0b00000000000000000000000000000100#32 = .legal .synReset := by decide
theorem test_decode_flt_step : decode 0b00000000000000000000000000010000#32 = .legal .fltStep := by decide
theorem test_decode_flt_reset : decode 0b00000000000000000000000000010001#32 = .legal .fltReset := by decide

/-- The bytes of R68: the OP byte is the lowest. -/
theorem test_decode_bytes : decodeBytes [0x11#8, 0x00#8, 0x00#8, 0x00#8, 0x7F#8] = (.legal .fltReset, [0x7F#8]) := by decide

theorem test_decode_bytes_short : (decodeBytes [0x01#8, 0x00#8, 0x00#8]).1 = .illegal .truncated := by decide

theorem test_decode_table_word : decodeTableWord 32 0x10 = some .fltStep ∧ decodeTableWord 32 0x110 = none := by decide

/-! ## What is ill formed is refused -/

theorem test_reserved_bits_refused :
    wordWellFormed 0x00000100#32 = false ∧ decode 0x00000100#32 = .illegal .reservedBits := by decide

theorem test_unassigned_ops_refused :
    ∀ op : Fin 256, wordWellFormed (BitVec.ofNat 32 op.val) = legalOps.contains op.val ∧
      (decode (BitVec.ofNat 32 op.val)).instr?.isSome = legalOps.contains op.val := by decide +kernel

theorem test_narrow_access_refused : accessWellFormed .w8 0x000#9 = false ∧ accessWellFormed .w16 0x004#9 = false := by decide

theorem test_misaligned_access_refused :
    accessWellFormed .w32 0x001#9 = false ∧ accessWellFormed .w32 0x006#9 = false ∧
      accessWellFormed .w32 0x1FF#9 = false := by decide

/-- R177 (1): an operator may not modulate itself or one above it; R32: bits 31:20 are 0. -/
theorem test_alg_entry_refused :
    algEntryWellFormed 0x000F0001#32 = false ∧ algEntryWellFormed 0x000F0002#32 = false ∧
      algEntryWellFormed 0x001F0000#32 = false ∧ algEntryWellFormed 0x00014210#32 = true := by decide

/-! ## Arithmetic and functions: spec/95_test_vectors.md sections 2 to 5 -/

/-- E-20, E-21, E-24, E-36, E-41, E-44. -/
theorem test_sanitize_control : sanitize .synCtrl 0xFFFFFFFF#32 = 0x0000AAFA#32 ∧
    sanitize .synCtrl 0x00000F3B#32 = 0x00000A3A#32 ∧ sanitize .fltCtrl 0x0000000F#32 = 0x0000000B#32 := by decide

theorem test_sanitize_float : sanitize .fltCutoff 0x7FC00000#32 = 0x41A00000#32 ∧
    sanitize (.opPhase 0) 0x40300000#32 = 0x3F400000#32 ∧ sanitize (.opPhase 0) 0xB3800000#32 = 0x3F7FFFFF#32 := by decide

/-- The numeric vectors of section 3: a tiny negative wraps to +0.0; soft_clip's largest result; the flush. -/
theorem test_wrap_tiny_negative : wrap01 0xB22BCC77#32 = 0x00000000#32 := by decide
theorem test_soft_clip_peak : softClip 0x403EEDA9#32 = 0x3F800001#32 := by decide
theorem test_flush_largest_subnormal : flushDenormal 0x807FFFFF#32 = 0x00000000#32 ∧
    flushDenormal 0x00800000#32 = 0x00800000#32 := by decide

/-- R105: the square root of 2 is 0x3FB504F3 (general knowledge), of 4 exactly 2. -/
theorem test_sqrt : fSqrt 0x40000000#32 = 0x3FB504F3#32 ∧ fSqrt 0x40800000#32 = 0x40000000#32 := by decide +kernel

/-- W-25 and W-30. -/
theorem test_polyblep : polyblep 0x3F7D70A4#32 0x3CA3D70A#32 = 0x3E800010#32 ∧
    polyblep 0x00000000#32 0x40000000#32 = 0xBF800000#32 := by decide

/-- W-40's segment ends next to saw_blep (R139): the crossfade amount just below TWO_THIRDS, and at the limit. -/
theorem test_warp_below_two_thirds : fMul (fSub 0x3F2AAAAA#32 thirdF) threeF = 0x3F7FFFFE#32 ∧
    fMul (fSub twoThirdsF thirdF) threeF = oneF := by decide

/-- W-4, at warp 1 (dt is the binary32 nearest to 0.01). -/
theorem test_warp_top : waveWarp (refConfig id id id) 0x3E000000#32 0x3F800000#32 0x3C23D70A#32 = 0x3F7FFFFE#32 := by
  decide +kernel

/-- F-8, F-10, F-12. -/
theorem test_fold : waveFold 0xBF666666#32 0x3F400000#32 .symmetric = 0x3ECCCCD0#32 ∧
    waveFold 0xBF000000#32 0x3F800000#32 .asymmetric = 0xBF7F9D99#32 ∧
    waveFold 0x80000000#32 0x3F000000#32 .asymmetric = 0x00000000#32 := by decide +kernel

/-! ## The commands -/

/-- R87's example. -/
theorem test_nop : leaves (exec .nop { State.reset with status := ⟨false, true⟩ }) (fun t => statusWord t.status == 2#32) := by
  decide

/-- An operator with every multiplier 1, a level and the triangle (WARP = THIRD). -/
def triangleOp (level : F32) : Operator := { Operator.reset with level := level, warp := 0x3EAAAAAB#32 }

/-- Program P1 before its first step: ALG 8, four triangles at 1024 Hz, period 2^-15. -/
def p1State : State :=
  { State.reset with
    syn := { Synth.reset with
      ctrl := { Synth.reset.ctrl with alg := 8 }
      gain := oneF, baseFreq := 0x44800000#32, dt := 0x38000000#32
      ops := Vector.replicate 4 (triangleOp halfF) } }

/-- FM-1: SYN_OUT = 0x3E400000, and the phase after two advances of 2^-6. -/
theorem test_syn_step_p1 : leaves (exec .synStep p1State)
    (fun t => busRead t 0x01C#9 == 0x3E400000#32 && busRead t 0x0B8#9 == 0x3D000000#32) := by decide +kernel

/-- Program P5 with the test table's entry 0, the stack 3 to 2 to 1 to 0. -/
def p5State : State :=
  { p1State with
    syn := { p1State.syn with
      ctrl := { Synth.reset.ctrl with alg := 0, fmode := 0b1000#4 }
      modDepth := oneF
      ops := #v[triangleOp oneF, triangleOp halfF, triangleOp halfF, { triangleOp oneF with coarse := 0x45000000#32 }] }
    algRom := Vector.ofFn (refConfig id id id).algTable }

/-- P5: SYN_OUT, OP3.PREV, OP2.PREV, OP1.PREV and OP0.PREV. -/
theorem test_syn_step_p5 : ([0x01C#9, 0x0BC#9, 0x09C#9, 0x07C#9, 0x05C#9].map
    (busRead (synStep (refConfig id id id) p5State))) =
      [0x3EB00000#32, 0x3E800000#32, 0x3F600000#32, 0x3E000000#32, 0x3EC00000#32] := by decide +kernel

/-- Operator 2's phase, DCB_Y1 and SYN_OUT set to 0.5. -/
def dirtySynth : State :=
  { State.reset with
    syn := { Synth.reset with
      ops := Vector.replicate 4 { Operator.reset with phase := halfF, prev := halfF }
      dcbX1 := halfF, dcbY1 := halfF, out := halfF } }

/-- FM-13. -/
theorem test_syn_reset_ops : leaves (exec .synResetOps dirtySynth) (fun t =>
    busRead t 0x098#9 == 0#32 && busRead t 0x0C4#9 == halfF && busRead t 0x01C#9 == halfF) := by decide

/-- FM-14. -/
theorem test_syn_reset_dcb : leaves (exec .synResetDcb dirtySynth) (fun t =>
    busRead t 0x0C4#9 == 0#32 && busRead t 0x0C0#9 == 0#32 && busRead t 0x098#9 == halfF) := by decide

/-- FM-15. -/
theorem test_syn_reset : leaves (exec .synReset dirtySynth) (fun t =>
    busRead t 0x05C#9 == 0#32 && busRead t 0x0C0#9 == 0#32 && busRead t 0x01C#9 == halfF) := by decide

/-- FL-2 and FL-9 from reset with the reference filter: FLT_OUT after one step. The constant is tan(π·1000/48000). -/
theorem test_flt_step_low_pass : busRead (fltStep (refConfig id id (fun _ => 0x3D863BA7#32)) { State.reset with flt :=
    { Filter.reset with mode := 2, cutoff := 0x447A0000#32, input := oneF } }) 0x118#9 = 0x3B805346#32 := by decide +kernel

theorem test_flt_step_cascade : busRead (fltStep (refConfig id id (fun _ => 0x3D863BA7#32)) { State.reset with flt :=
    { Filter.reset with mode := 9, cutoff := 0x447A0000#32, input := oneF } }) 0x118#9 = 0x3B69F655#32 := by decide +kernel

/-- R261: an input of 2^127 to a reference section whose state is near the largest number overflows it, and section B's
output is finite. -/
theorem test_cascade_output_finite :
    let f := (refConfig id id (fun _ => 0x3F800000#32)).toFilterParts
    let k := fd2 f 0x37AEC33E#32 0x469C4000#32 0x3C23D70A#32 .hp
    isFinite (sec2 f .hp ⟨zeroF, 0xFF7FFFFF#32⟩ 0x7F000000#32 k).y = false ∧
      isFinite (sectionB f .hp ⟨zeroF, 0xFF7FFFFF#32⟩ 0x7F000000#32 k).y = true :=
  ⟨by decide +kernel, (sectionB_of_beyond (by decide) _ _ _ _).1.2.2⟩

/-- The filter with every section state and FLT_OUT at 0.5, mode 3, last mode 2. -/
def dirtyFilter : State :=
  { State.reset with
    flt := { Filter.reset with
      mode := 3, lastMode := 2, f1S := halfF, f2aS1 := halfF, f2aS2 := halfF, f2bS1 := halfF, f2bS2 := halfF,
      out := halfF } }

/-- FL-24. -/
theorem test_flt_reset : leaves (exec .fltReset dirtyFilter) (fun t =>
    busRead t 0x120#9 == 0#32 && busRead t 0x130#9 == 0#32 && busRead t 0x118#9 == halfF &&
      busRead t 0x11C#9 == 2#32) := by decide

/-! ## The bus: spec/95_test_vectors.md section 9 -/

/-- X-1, X-2, X-6, X-10. -/
theorem test_illegal_command : readsAfter (.write .w32 0x1F8#9 0x00000005#32) 0x1FC#9 1#32 := by decide
theorem test_narrow_write : readsAfter (.write .w16 0x004#9 0x1234#32) 0x1FC#9 2#32 := by decide
theorem test_misaligned_cmd_write : readsAfter (.write .w32 0x1FA#9 1#32) 0x1FC#9 2#32 := by decide
theorem test_reserved_write : readsAfter (.write .w32 0x020#9 0x12345678#32) 0x1FC#9 0#32 := by decide

/-- X-4: a misaligned read returns 0. -/
theorem test_misaligned_read : leaves (step (pending (.read .w32 0x006#9)))
    (fun t => t.answer == some 0#32 && busRead t 0x1FC#9 == 2#32) := by decide

/-- X-8. -/
theorem test_status_write_one_to_clear : leaves (step { bothErrors with bus := [.write .w32 0x1FC#9 2#32] })
    (fun t => busRead t 0x1FC#9 == 1#32) := by decide

/-- R90's example: `cmd SYN_STEP` is `W 1F8 00000001`. -/
theorem test_transaction_text :
    (programEvents (asmCmd .synStep)).map transactionText = [some "W 1F8 00000001"] := by decide

/-- P5's first line: `ctrl ALG=0, FMODE=0b1000, FTYPE=0:0:0:0` writes 0x80. -/
theorem test_ctrl_line : programEvents (asmCtrl 0#4 0b1000#4 0#2 0#2 0#2 0#2) = [.write .w32 0x000#9 0x80#32] := by decide

/-- R284: 440 Hz is 0x43DC0000 (H-8). -/
theorem test_int_to_float : fOfInt 440 = 0x43DC0000#32 ∧ fOfInt (-12) = 0xC1400000#32 := by decide

end Sys2Proof.Tests
end

