-- ==== Sys2Proof/Tests/Witnesses.lean ====
section
/-! SUPPORT. One witness for each claim that has hypotheses: a state and operands that meet them together, each clause at
an edge of its range. -/

namespace Sys2Proof.Tests

set_option Elab.async false

open Sys2Proof.Machine

/-- Every float parameter is legal, by a finite check over the register list. -/
theorem paramsLegal_of_check {s : State} (h : allRegs.all (fun r =>
    match paramRange r with
    | some b => inRange b (readReg s r)
    | none => true) = true) : ParamsLegal s := by
  intro r b hb
  have hm : r ∈ allRegs := by
    have := regAt_regAddr r
    exact List.mem_of_find?_eq_some this
  have := List.all_eq_true.mp h r hm
  simpa [hb] using this

/-- The state after an access taken with nothing behind it meets p. -/
def answersNext (s : State) (p : State → Prop) : Prop := ∃ t, step s = .next t ∧ p t

theorem witness_CommandWordLegalExactly : decode 0x00000011#32 = .legal .fltReset ∧
    (0x00000011#32 : Word).extractLsb' 8 24 = 0#24 ∧ (0x00000011#32 : Word).extractLsb' 0 8 = 0x11#8 := by decide

theorem witness_DecodeEncodeAgree : decode 0x00000001#32 = .legal .synStep ∧
    decodeBytes (0x10#8 :: 0x00#8 :: 0x00#8 :: 0x00#8 :: []) = (.legal .fltStep, []) := by decide

theorem witness_StepRunsTheDecodedCommand :
    CmdWritePending (pending (.write .w32 0x1F8#9 0x00000010#32)) 0x00000010#32 [] ∧
      decode 0x00000010#32 = .legal .fltStep := ⟨rfl, by decide⟩

theorem witness_IllegalWordSetsErrCmdOnly_reserved :
    CmdWritePending (pending (.write .w32 0x1F8#9 0x80000000#32)) 0x80000000#32 [] ∧
      (0x80000000#32 : Word).extractLsb' 8 24 ≠ 0#24 := ⟨rfl, by decide⟩

theorem witness_IllegalWordSetsErrCmdOnly_op :
    CmdWritePending (pending (.write .w32 0x1F8#9 0x00000012#32)) 0x00000012#32 [] ∧
      (0x00000012#32 : Word).extractLsb' 0 8 ∉ [0x00#8, 0x01#8, 0x02#8, 0x03#8, 0x04#8, 0x10#8, 0x11#8] :=
  ⟨rfl, by decide⟩

theorem witness_BusErrorSetsErrBusOnly :
    (IllegalAccess .w16 0x000#9 ∧ (pending (.read .w16 0x000#9)).bus = .read .w16 0x000#9 :: []) ∧
    (IllegalAccess .w8 0x1F8#9 ∧ (pending (.write .w8 0x1F8#9 1#32)).bus = .write .w8 0x1F8#9 1#32 :: []) ∧
    (IllegalAccess .w32 0x1FF#9 ∧ (pending (.write .w32 0x1FF#9 0#32)).bus = .write .w32 0x1FF#9 0#32 :: []) :=
  ⟨⟨.inl (by decide), rfl⟩, ⟨.inl (by decide), rfl⟩, .inr (by decide), rfl⟩

theorem witness_AlignedReadReturnsRegister :
    (pending (.read .w32 0x1FC#9)).bus = .read .w32 0x1FC#9 :: [] ∧ (0x1FC#9 : Addr).toNat % 4 = 0 ∧
      (0x1FC#9 : Addr) = regAddr .status ∧ Reg.status ≠ .cmd := ⟨rfl, by decide, rfl, by decide⟩

theorem reserved_of_regAt {a : Addr} (h : regAt a = none) (r : Reg) : a ≠ regAddr r := by
  rintro rfl
  simp [regAt_regAddr] at h

theorem witness_AlignedReadReturnsRegister_reserved :
    (0x1F4#9 : Addr).toNat % 4 = 0 ∧ ∀ r, (0x1F4#9 : Addr) ≠ regAddr r := ⟨by decide, reserved_of_regAt (by decide)⟩

theorem witness_HostWriteStoresSanitizedValue :
    (regKind (.opFine 3) = .parameter ∧
      (pending (.write .w32 (regAddr (.opFine 3)) 0xFFFFFFFF#32)).bus = .write .w32 (regAddr (.opFine 3)) 0xFFFFFFFF#32 :: []) ∧
    (regKind .f2bS2 = .state ∧
      (pending (.write .w32 (regAddr .f2bS2) 0x00000001#32)).bus = .write .w32 (regAddr .f2bS2) 0x00000001#32 :: []) :=
  ⟨⟨rfl, rfl⟩, rfl, rfl⟩

/-- An infinity, a NaN and a finite word, pending at a phase register and at the last section state. -/
theorem witness_HostWriteStoresSanitizedValue_state :
    (0x0B8#9 ∈ phaseAddrs ∧ (pending (.write .w32 0x0B8#9 0x7F800000#32)).bus = .write .w32 0x0B8#9 0x7F800000#32 :: []) ∧
    (0x130#9 ∈ plainStateAddrs ∧ (pending (.write .w32 0x130#9 0x7F7FFFFF#32)).bus = .write .w32 0x130#9 0x7F7FFFFF#32 :: []) ∧
    isFinite 0x7F800000#32 = false ∧ isFinite 0xFFC00001#32 = false ∧ isFinite 0x7F7FFFFF#32 = true :=
  ⟨⟨by decide, rfl⟩, ⟨by decide, rfl⟩, by decide, by decide, by decide⟩

theorem witness_SynCtrlFieldsSaturate :
    (pending (.write .w32 0x000#9 0xFFFFFFFF#32)).bus = .write .w32 0x000#9 0xFFFFFFFF#32 :: [] ∧ 3 < 4 := ⟨rfl, by decide⟩

theorem witness_FltCtrlModeSaturates :
    (pending (.write .w32 0x100#9 0x0000000C#32)).bus = .write .w32 0x100#9 0x0000000C#32 :: [] := rfl

theorem witness_ReadOnlyWritesIgnored :
    (∀ a ∈ [0x01C#9, 0x118#9, 0x11C#9, 0x180#9, 0x1A8#9, 0x1AC#9], (a : Addr).toNat % 4 = 0 ∧
      (pending (.write .w32 a oneF)).bus = .write .w32 a oneF :: []) ∧
    (0x180 ≤ (0x180#9 : Addr).toNat ∧ (0x1A8#9 : Addr).toNat ≤ 0x1A8) ∧ ∀ r, (0x1AC#9 : Addr) ≠ regAddr r :=
  ⟨by decide, by decide, reserved_of_regAt (by decide)⟩

theorem witness_StatusWriteOneToClear :
    ({ bothErrors with bus := [.write .w32 0x1FC#9 0x00000003#32] } : State).bus = .write .w32 0x1FC#9 0x00000003#32 :: [] :=
  rfl

theorem witness_ReadBehindCommandSeesItsResult (i : Instr) :
    ∃ t, exec i { State.reset with bus := [.read .w32 0x01C#9], answer := none } = .next t ∧ (0x01C#9 : Addr).toNat % 4 = 0 := by
  cases i <;> exact ⟨_, rfl, by decide⟩

/-- The NaN, the two ends, just outside them, and both zeros: a parameter's five cases. -/
theorem witness_FloatParametersClampOnWrite :
    (0x114#9, 0xC9800000#32, 0x49800000#32, 0x00000000#32) ∈ paramTable ∧
    (0x0B4#9, 0x00000000#32, 0x3F800000#32, 0x00000000#32) ∈ paramTable ∧
    isNaN 0xFF800001#32 = true ∧ fLt 0xC9800001#32 0xC9800000#32 = true ∧ fLt 0x49800000#32 0x49800001#32 = true ∧
    (fLe 0xC9800000#32 0xC9800000#32 = true ∧ fLe 0xC9800000#32 0x49800000#32 = true) ∧
    (fLe 0x00000000#32 0x80000000#32 = true ∧ fLe 0x80000000#32 0x3F800000#32 = true) := by decide

theorem witness_ResetRegisterValues :
    (pending .reset).bus = .reset :: [] ∧
    (0x17C#9 : Addr).toNat % 4 = 0 ∧ (∀ p ∈ nonzeroResets, (0x17C#9 : Addr) ≠ p.1) ∧ (0x17C#9 : Addr).toNat < 0x180 ∧
    (0x1AC#9 : Addr).toNat % 4 = 0 ∧ (∀ p ∈ nonzeroResets, (0x1AC#9 : Addr) ≠ p.1) ∧ 0x1A8 < (0x1AC#9 : Addr).toNat :=
  ⟨rfl, by decide, by simp [nonzeroResets], by decide, by decide, by simp [nonzeroResets], by decide⟩

theorem witness_RomMeetsTableConstraints : RomIntact p1State ∧ (3 : Fin 4) ≤ 3 ∧ (0 : Fin 4) ≤ 3 :=
  ⟨fun a => by simp [p1State, State.reset, readReg], by decide, by decide⟩

theorem witness_NopChangesNothing : (0x80000000#32 : Word).extractLsb' 0 8 = 0x00#8 ∧
    (0x80000000#32 : Word).extractLsb' 8 24 ≠ 0#24 := by decide

theorem witness_ModulationNeverMovesPhase :
    let s := p1State
    let u := { p1State with syn := { p1State.syn with modDepth := oneF, pmDepth := oneF, gain := zeroF, extIn := oneF } }
    s.syn.ctrl.fmode = u.syn.ctrl.fmode ∧ s.syn.baseFreq = u.syn.baseFreq ∧ s.syn.dt = u.syn.dt ∧
      ∀ i : Fin 4, s.syn.ops[i].phase = u.syn.ops[i].phase ∧ s.syn.ops[i].coarse = u.syn.ops[i].coarse ∧
        s.syn.ops[i].fine = u.syn.ops[i].fine := ⟨rfl, rfl, rfl, fun _ => ⟨rfl, rfl, rfl⟩⟩

/-- A period of zero, at the two ends of a phase's range. -/
theorem witness_ZeroPeriodHoldsPhase :
    let s := { State.reset with syn := { Synth.reset with dt := zeroF, ops := #v[
      { Operator.reset with phase := 0x3F7FFFFF#32 }, { Operator.reset with phase := 0x00000001#32 }, Operator.reset,
      { Operator.reset with phase := halfF }] } }
    ParamsLegal s ∧ PhasesLegal s ∧ isZeroF s.syn.dt = true :=
  ⟨paramsLegal_of_check (by decide), by unfold PhasesLegal; decide, by decide⟩

theorem witness_FixedModeIgnoresBaseFreq :
    ({ p1State with syn := { p1State.syn with ctrl := { p1State.syn.ctrl with fmode := 0xF#4 } } } : State).syn.ctrl.fmode = 0xF#4 :=
  rfl

/-- Two states that differ in operator 0 alone, for i = 1. -/
theorem witness_LowerOperatorsNeverReachHigher :
    let s := p1State
    let u := setOp p1State 0 (fun o => { o with level := zeroF, phase := halfF, prev := oneF })
    (s.syn.ctrl = u.syn.ctrl ∧ s.syn.modDepth = u.syn.modDepth ∧ s.syn.baseFreq = u.syn.baseFreq ∧ s.syn.dt = u.syn.dt) ∧
      s.algRom = u.algRom ∧ s.freeIdx = u.freeIdx ∧ s.syn.ops[0] ≠ u.syn.ops[0] ∧
      ∀ j : Fin 4, 1 ≤ j → s.syn.ops[j] = u.syn.ops[j] := ⟨⟨rfl, rfl, rfl, rfl⟩, rfl, rfl, by decide, by decide⟩

/-- Program P1's synth with gain 0 and a DC blocker state. -/
def silentState (x1 y1 : F32) : State :=
  { p1State with syn := { p1State.syn with gain := zeroF, dcbX1 := x1, dcbY1 := y1 } }

/-- Gain 0, with a DC blocker output that is finite and with one that overflows. -/
theorem witness_ZeroGainSilences :
    isZeroF (silentState zeroF zeroF).syn.gain = true ∧
    leaves (exec .synStep (silentState zeroF zeroF)) (fun t => isFinite (busRead t 0x0C4#9)) = true ∧
    isZeroF (silentState 0xFF7FFFFF#32 0x7F7FFFFF#32).syn.gain = true ∧
    leaves (exec .synStep (silentState 0xFF7FFFFF#32 0x7F7FFFFF#32)) (fun t => isInf (busRead t 0x0C4#9)) = true :=
  ⟨by decide, by decide +kernel, by decide, by decide +kernel⟩

/-- The two clauses of SYN_OUT: a gain that is not 0, and one that is. -/
theorem witness_SynStepComputesSample :
    isZeroF p1State.syn.gain = false ∧ isZeroF (silentState zeroF zeroF).syn.gain = true := ⟨by decide, by decide⟩

/-- The filter in a mode. -/
def inMode (m last : Fin 12) : State := { State.reset with flt := { Filter.reset with mode := m, lastMode := last } }

theorem witness_FltStepOnePath : machineConfig.modeTable (inMode 0 0).flt.mode = (.one, .lp) ∧
    machineConfig.modeTable (inMode 1 0).flt.mode = (.one, .hp) := ⟨rfl, rfl⟩

theorem witness_FltStepTwoPath : machineConfig.modeTable (inMode 2 0).flt.mode = (.two, .lp) ∧
    machineConfig.modeTable (inMode 6 6).flt.mode = (.two, .ap) := ⟨rfl, rfl⟩

theorem witness_FltStepCascadePath : machineConfig.modeTable (inMode 7 0).flt.mode = (.cas, .lp) ∧
    machineConfig.modeTable (inMode 11 11).flt.mode = (.cas, .ap) := ⟨rfl, rfl⟩

theorem witness_ModeChangeStartsFromZero : (inMode 11 0).flt.mode ≠ (inMode 11 0).flt.lastMode := by decide

theorem witness_InactiveSectionsKeepState :
    ((inMode 1 1).flt.mode = (inMode 1 1).flt.lastMode ∧ (machineConfig.modeTable (inMode 1 1).flt.mode).1 = .one) ∧
    ((inMode 6 6).flt.mode = (inMode 6 6).flt.lastMode ∧ (machineConfig.modeTable (inMode 6 6).flt.mode).1 = .two) ∧
    ((inMode 7 7).flt.mode = (inMode 7 7).flt.lastMode ∧ (machineConfig.modeTable (inMode 7 7).flt.mode).1 = .cas) :=
  ⟨⟨rfl, rfl⟩, ⟨rfl, rfl⟩, rfl, rfl⟩

theorem witness_StepsLeaveNoSubnormalState :
    (machineConfig.modeTable (inMode 0 0).flt.mode).1 = .one ∧ (machineConfig.modeTable (inMode 2 0).flt.mode).1 ≠ .one ∧
      (machineConfig.modeTable (inMode 11 0).flt.mode).1 = .cas := ⟨rfl, by decide, rfl⟩

theorem witness_OnePoleIgnoresDamping : (machineConfig.modeTable (inMode 1 1).flt.mode).1 = .one := rfl

theorem witness_ZeroInputStaysZero :
    let s := { State.reset with flt := { Filter.reset with mode := 11, drive := oneF } }
    ParamsLegal s ∧ (∀ r ∈ sectionRegs, readReg s r = 0x00000000#32) ∧ s.flt.input = 0x00000000#32 :=
  ⟨paramsLegal_of_check (by decide), by decide, rfl⟩

theorem witness_TrigFunctionsMeetRequirements : isFinite 0xFF7FFFFF#32 = true ∧
    fLe (fAbs 0xBF800000#32) 0x3F800000#32 = true := by decide

/-- The two ends of the period's, the cutoff's, the damping's and the input's range, and an extreme state. -/
theorem witness_FilterFunctionsMeetRequirements :
    (fLe 0x35800000#32 0x35800000#32 = true ∧ fLe 0x35800000#32 0x3F800000#32 = true ∧
      fLe 0x3F800000#32 0x3F800000#32 = true) ∧
    (fLe 0x41A00000#32 0x41A00000#32 = true ∧ fLe 0x41A00000#32 0x469C4000#32 = true ∧
      fLe 0x469C4000#32 0x469C4000#32 = true) ∧
    (fLe 0x3C23D70A#32 0x3C23D70A#32 = true ∧ fLe 0x3C23D70A#32 0x3F34FDF4#32 = true ∧
      fLe 0x3F34FDF4#32 0x3F34FDF4#32 = true) ∧
    (fLe 0xC9800000#32 0xC9800000#32 = true ∧ fLe 0xC9800000#32 0x49800000#32 = true ∧
      fLe 0x49800000#32 0x49800000#32 = true) ∧
    isFinite 0x7F7FFFFF#32 = true ∧ isFinite 0x80000001#32 = true := by decide

/-- Below the threshold, at it, and with no number for a rate. -/
theorem witness_DesignersAndSectionsHaveSpecStructure :
    let c := { refConfig id id id with wTh1 := oneF, wTh2 := oneF, wFn := fun T _ => T }
    fLt (c.wFn halfF zeroF) c.wTh1 = true ∧ fLe c.wTh1 (c.wFn oneF zeroF) = true ∧ isNaN (c.wFn qNaN zeroF) = true ∧
      FilterType.ap ∈ [FilterType.lp, .notch, .ap] ∧ FilterType.bp ∈ [FilterType.hp, .bp] := by decide

theorem witness_SoftClipIsOdd : isNaN 0x7F800000#32 = false ∧ isNaN 0x80000000#32 = false := by decide

theorem witness_SymmetricFoldBounded : isFinite 0x7F7FFFFF#32 = true := by decide

theorem witness_FoldOutputBounded : fLe (fAbs 0xC0000000#32) 0x40000000#32 = true ∧
    (fLt 0x00000000#32 0x3F800000#32 = true ∧ fLe 0x3F800000#32 0x3F800000#32 = true) ∧
    (fLt 0x00000000#32 0x00000001#32 = true ∧ fLe 0x00000001#32 0x3F800000#32 = true) := by decide

theorem witness_WarpExactAtThresholds :
    (legalPhase 0x00000000#32 = true ∧ isFinite 0x00000000#32 = true ∧ fLe 0x00000000#32 0x00000000#32 = true) ∧
    (legalPhase 0x3F7FFFFF#32 = true ∧ isFinite 0x7F7FFFFF#32 = true ∧ fLe 0x00000000#32 0x7F7FFFFF#32 = true) := by decide

theorem witness_StatusBitsHaveOneCause :
    answersNext (pending (.write .w32 0x1F8#9 0x00000100#32)) (fun t => t.status.errCmd = true) ∧
    answersNext { bothErrors with bus := [.write .w32 0x1FC#9 0x00000001#32] } (fun t => t.status.errCmd = false) ∧
    answersNext (pending (.read .w8 0x000#9)) (fun t => t.status.errBus = true) ∧
    answersNext { bothErrors with bus := [.reset] } (fun t => t.status.errBus = false) :=
  ⟨⟨_, rfl, rfl⟩, ⟨_, rfl, rfl⟩, ⟨_, rfl, rfl⟩, _, rfl, rfl⟩

/-- An accumulator changes: by each of its five kinds of writer. -/
theorem witness_PhaseChangesOnlyByItsWriters :
    (∀ e ∈ [HostEvent.write .w32 0x1F8#9 1#32, .write .w32 0x1F8#9 2#32, .write .w32 0x1F8#9 4#32,
        .write .w32 0x058#9 0x3E800000#32, .reset],
      leaves (step { p1State with
        syn := { p1State.syn with ops := Vector.replicate 4 { triangleOp oneF with phase := halfF } }, bus := [e] })
        (fun t => readReg t (.opPhase 0) != halfF) = true) := by decide +kernel

/-- Each output register changes: by its step command and by a reset. -/
theorem witness_OutputsWrittenOnlyByTheirStep :
    leaves (step { p1State with bus := [.write .w32 0x1F8#9 1#32] }) (fun t => readReg t .synOut != 0#32) = true ∧
    leaves (step { dirtyFilter with bus := [.reset] }) (fun t => readReg t .fltOut != readReg dirtyFilter .fltOut) = true ∧
    leaves (step { dirtyFilter with bus := [.write .w32 0x1F8#9 0x10#32] })
      (fun t => readReg t .fltLastMode != readReg dirtyFilter .fltLastMode) = true := by
  refine ⟨by decide +kernel, by decide +kernel, by decide +kernel⟩

/-- Program P1's synth and a cascaded filter with section states, a mode to change to, and a command pending. -/
def busyState (i : Instr) : State :=
  { p1State with
    flt := { Filter.reset with mode := 11, lastMode := 2, input := oneF, drive := oneF, f2aS1 := halfF, f2bS2 := oneF }
    bus := [.write .w32 0x1F8#9 (encode i)] }

theorem registerInv_busyState (i : Instr) : RegisterInv (busyState i) :=
  ⟨paramsLegal_of_check (by cases i <;> decide), by unfold PhasesLegal; cases i <;> decide,
    by unfold FilterFinite; cases i <;> decide, fun a => by simp [busyState, p1State, State.reset, readReg]⟩

/-- A FLT_STEP on the cascaded path, through a mode change. -/
theorem witness_StepKeepsRegisterInv :
    RegisterInv (busyState .fltStep) ∧ answersNext (busyState .fltStep) (fun t => t.flt.lastMode = 11) :=
  ⟨registerInv_busyState _, _, rfl, rfl⟩

/-- The cascaded path with a zero input: section B's input is +0.0, whatever the OPEN functions are. -/
def quietCascade : State :=
  { busyState .fltStep with flt := { (busyState .fltStep).flt with input := zeroF } }

/-- Section B's input is in range, and the path is CAS. -/
theorem witness_FltStepCascadePath_in_range :
    machineConfig.modeTable quietCascade.flt.mode = (.cas, .ap) ∧
    legalSample (sec2 machineFilter .ap ⟨(afterModeChange quietCascade.flt).f2aS1, (afterModeChange quietCascade.flt).f2aS2⟩
      (drivenSample quietCascade.flt)
      (fd2 machineFilter quietCascade.flt.dt quietCascade.flt.cutoff quietCascade.flt.damp .ap)).y = true := by
  have hx : drivenSample quietCascade.flt = zeroF := by decide
  have hz := (machineFilter_meets.2.1.2 quietCascade.flt.dt quietCascade.flt.cutoff quietCascade.flt.damp .ap
    (by decide) (by decide) (by decide)).1
  refine ⟨rfl, ?_⟩
  rw [hx]
  exact (congrArg (fun r : Sec2Result => legalSample r.y) hz).trans (by decide : legalSample zeroF = true)

/-- Section B's input is out of range: with the reference functions, after a host write of 2^30 to F2A_S2. Of the machine's
own functions nothing says whether an input is ever out of range. -/
theorem witness_FltStepCascadePath_beyond :
    let f := (refConfig id id (fun _ => 0x3D863BA7#32)).toFilterParts
    legalSample (sec2 f .lp ⟨zeroF, 0x4E800000#32⟩ oneF (fd2 f 0x37AEC33E#32 0x447A0000#32 0x3F34FDF4#32 .lp)).y = false := by
  decide +kernel

/-- A state one command past reset. -/
theorem witness_ReachableStatesKeepRegisterInv :
    ∃ t, step (pending (.write .w32 0x1F8#9 0x00000010#32)) = .next t ∧ Reachable t :=
  ⟨_, rfl, .step _ _ (.issue State.reset [.write .w32 0x1F8#9 0x00000010#32] .reset) rfl⟩

/-- The step is a SYN_STEP. -/
theorem witness_SynthOutputsStayFinite :
    RegisterInv (busyState .synStep) ∧ SynthFinite (busyState .synStep) ∧
      answersNext (busyState .synStep) (fun t => t.freeIdx = 1) :=
  ⟨registerInv_busyState _, ⟨by decide, by decide⟩, _, rfl, rfl⟩

theorem witness_InstancesAreIndependent :
    (1 : Nat) ≠ 0 ∧ ([⟨0x000, p1State⟩, ⟨0x200, p1State⟩] : List Instance)[1]?.isSome = true := ⟨by decide, rfl⟩

end Sys2Proof.Tests
end

/-! SUPPORT. Rounding, once for every operation: it keeps order, it gives a finite number back, and so it keeps any bound
that is itself a finite number. -/

namespace Sys2Proof

/-! ## The quotient rounded to the nearest integer -/

/-- A common factor of the two cancels. -/
theorem roundQuot_mul_right (n d : Nat) {c : Nat} (hc : 0 < c) : roundQuot (n * c) (d * c) = roundQuot n d := by
  have hup : d * c < 2 * (n % d * c) ↔ d < 2 * (n % d) := by
    rw [← Nat.mul_assoc]; exact Nat.mul_lt_mul_right hc
  have htie : 2 * (n % d * c) = d * c ↔ 2 * (n % d) = d := by
    rw [← Nat.mul_assoc]; exact Nat.mul_left_inj hc.ne'
  simp only [roundQuot, Nat.mul_div_mul_right _ _ hc, Nat.mul_mod_mul_right, hup, htie]

theorem roundQuot_one (n : Nat) : roundQuot n 1 = n := by simp [roundQuot, Nat.mod_one]

/-- An integer is its own rounding. -/
theorem roundQuot_mul_self (q : Nat) {d : Nat} (hd : 0 < d) : roundQuot (q * d) d = q := by
  simpa [roundQuot_one] using roundQuot_mul_right q 1 hd

theorem roundQuot_mono (d : Nat) {n m : Nat} (h : n ≤ m) : roundQuot n d ≤ roundQuot m d := by
  have hq : n / d ≤ m / d := Nat.div_le_div_right h
  have hn := Nat.div_add_mod n d
  have hm := Nat.div_add_mod m d
  rcases hq.lt_or_eq with hlt | heq
  · simp only [roundQuot]; split_ifs <;> omega
  · rw [heq] at hn
    simp only [roundQuot, heq]
    split_ifs <;> omega

/-! ## Rounding to the bits of a number -/

/-- The exponent steps above the smallest, of num/den units: the binade of the result. -/
def binade (num den : Nat) : Nat := Nat.log2 (num / den) - 23

theorem roundMag_eq (num den : Nat) :
    roundMag num den = min (binade num den * 2 ^ 23 + roundQuot num (den * 2 ^ binade num den)) 0x7F800000 := rfl

theorem binade_mono (den : Nat) {n m : Nat} (h : n ≤ m) : binade n den ≤ binade m den := by
  simp only [binade, Nat.log2_eq_log_two]
  exact Nat.sub_le_sub_right (Nat.log_mono_right (Nat.div_le_div_right h)) _

/-- A quotient is below 2^24 steps of its binade. -/
theorem roundQuot_binade_le (num : Nat) {den : Nat} (hd : 0 < den) :
    roundQuot num (den * 2 ^ binade num den) ≤ 2 ^ 24 := by
  have hlt : num < 2 ^ 24 * (den * 2 ^ binade num den) := by
    have hq : num / den < 2 ^ (Nat.log2 (num / den) + 1) := Nat.lt_log2_self
    have hpow : 2 ^ (Nat.log2 (num / den) + 1) ≤ 2 ^ (24 + binade num den) :=
      Nat.pow_le_pow_right (by decide) (by simp only [binade]; omega)
    have := (Nat.div_lt_iff_lt_mul hd).mp (hq.trans_le hpow)
    rw [Nat.pow_add] at this
    linarith
  calc roundQuot num (den * 2 ^ binade num den)
      ≤ roundQuot (2 ^ 24 * (den * 2 ^ binade num den)) (den * 2 ^ binade num den) := roundQuot_mono _ hlt.le
    _ = 2 ^ 24 := roundQuot_mul_self _ (Nat.mul_pos hd (Nat.two_pow_pos _))

/-- Above the lowest binade a quotient is at least 2^23 steps of it. -/
theorem le_roundQuot_binade {num den : Nat} (hd : 0 < den) (hk : 0 < binade num den) :
    2 ^ 23 ≤ roundQuot num (den * 2 ^ binade num den) := by
  have hle : 2 ^ 23 * (den * 2 ^ binade num den) ≤ num := by
    have hlog : Nat.log2 (num / den) = 23 + binade num den := by simp only [binade] at hk ⊢; omega
    have hne : num / den ≠ 0 := by rintro h0; simp [h0] at hlog; omega
    have hq : 2 ^ Nat.log2 (num / den) ≤ num / den := Nat.log2_self_le hne
    have := (Nat.le_div_iff_mul_le hd).mp hq
    rw [hlog, Nat.pow_add] at this
    linarith
  calc 2 ^ 23 = roundQuot (2 ^ 23 * (den * 2 ^ binade num den)) (den * 2 ^ binade num den) :=
        (roundQuot_mul_self _ (Nat.mul_pos hd (Nat.two_pow_pos _))).symm
    _ ≤ _ := roundQuot_mono _ hle

/-- Rounding keeps the order of two numbers of units. -/
theorem roundMag_mono {den n m : Nat} (hd : 0 < den) (h : n ≤ m) : roundMag n den ≤ roundMag m den := by
  rw [roundMag_eq, roundMag_eq]
  refine min_le_min_right _ ?_
  rcases (binade_mono den h).eq_or_lt with hk | hk
  · rw [hk]
    exact Nat.add_le_add_left (roundQuot_mono _ h) _
  · have hn := roundQuot_binade_le n hd
    have hm := le_roundQuot_binade (num := m) hd (by omega)
    omega

/-- Rounding looks at the ratio alone. -/
theorem roundMag_mul_right (num : Nat) {den c : Nat} (hc : 0 < c) : roundMag (num * c) (den * c) = roundMag num den := by
  simp only [roundMag, Nat.mul_div_mul_right _ _ hc, Nat.mul_right_comm den c, roundQuot_mul_right _ _ hc]

/-! ## The magnitude of the low 31 bits -/

/-- The magnitude that bits 30:0 stand for. -/
def bitsMag (bits : Nat) : Nat :=
  if bits / 2 ^ 23 = 0 then bits % 2 ^ 23 else (2 ^ 23 + bits % 2 ^ 23) * 2 ^ (bits / 2 ^ 23 - 1)

theorem mag_eq_bitsMag (x : F32) : mag x = bitsMag (x.toNat % 2 ^ 31) := by
  have he : expField x = x.toNat % 2 ^ 31 / 2 ^ 23 := by simp only [expField]; omega
  have hf : fracField x = x.toNat % 2 ^ 31 % 2 ^ 23 := by simp only [fracField]; omega
  rw [mag, bitsMag, he, hf]

theorem mag_packF (neg : Bool) {bits : Nat} (h : bits < 2 ^ 31) : mag (packF neg bits) = bitsMag bits := by
  rw [mag_eq_bitsMag, packF_toNat neg bits h]
  congr 1
  split <;> omega

/-- A magnitude in the binade of its exponent: e steps of 2^23, and the steps of size 2^e. -/
theorem bitsMag_of_split {e f : Nat} (hf : f < 2 ^ 23) : bitsMag ((e + 1) * 2 ^ 23 + f) = (2 ^ 23 + f) * 2 ^ e := by
  have hd : ((e + 1) * 2 ^ 23 + f) / 2 ^ 23 = e + 1 := by omega
  have hm : ((e + 1) * 2 ^ 23 + f) % 2 ^ 23 = f := by omega
  rw [bitsMag, hd, hm, if_neg (by omega), Nat.add_sub_cancel]

theorem bitsMag_of_lt {f : Nat} (hf : f < 2 ^ 23) : bitsMag f = f := by
  rw [bitsMag, if_pos (by omega)]
  omega

/-- Bits 30:0 are a fraction alone, or an exponent above 0 and a fraction. -/
theorem bits_cases (b : Nat) : b < 2 ^ 23 ∨ ∃ e f, f < 2 ^ 23 ∧ b = (e + 1) * 2 ^ 23 + f := by
  by_cases h : b < 2 ^ 23
  · exact .inl h
  · exact .inr ⟨b / 2 ^ 23 - 1, b % 2 ^ 23, Nat.mod_lt _ (by decide), by omega⟩

/-- A larger encoding is a larger magnitude. -/
theorem bitsMag_strictMono : StrictMono bitsMag := by
  refine strictMono_nat_of_lt_succ fun b => ?_
  rcases bits_cases b with hb | ⟨e, f, hf, rfl⟩
  · rcases (show b + 1 < 2 ^ 23 ∨ b + 1 = (0 + 1) * 2 ^ 23 + 0 by omega) with h | h
    · rw [bitsMag_of_lt hb, bitsMag_of_lt h]; omega
    · rw [h, bitsMag_of_lt hb, bitsMag_of_split (by decide)]; omega
  · rw [bitsMag_of_split hf]
    rcases (show f + 1 < 2 ^ 23 ∨ f + 1 = 2 ^ 23 by omega) with h | h
    · rw [show (e + 1) * 2 ^ 23 + f + 1 = (e + 1) * 2 ^ 23 + (f + 1) by omega, bitsMag_of_split h]
      exact Nat.mul_lt_mul_of_pos_right (by omega) (Nat.two_pow_pos _)
    · rw [show (e + 1) * 2 ^ 23 + f + 1 = (e + 1 + 1) * 2 ^ 23 + 0 by omega, bitsMag_of_split (by decide),
        show (2 ^ 23 + 0) * 2 ^ (e + 1) = 2 ^ 24 * 2 ^ e by ring]
      exact Nat.mul_lt_mul_of_pos_right (by omega) (Nat.two_pow_pos _)

theorem mag_le_mag_iff (x y : F32) : mag x ≤ mag y ↔ x.toNat % 2 ^ 31 ≤ y.toNat % 2 ^ 31 := by
  rw [mag_eq_bitsMag, mag_eq_bitsMag, bitsMag_strictMono.le_iff_le]

theorem isFinite_iff_bits (x : F32) : isFinite x = true ↔ x.toNat % 2 ^ 31 < 0x7F800000 := by
  simp only [isFinite, expField, bne_iff_ne]
  omega

/-- What is no larger than a finite number is finite. -/
theorem isFinite_of_mag_le {x b : F32} (hb : isFinite b = true) (h : mag x ≤ mag b) : isFinite x = true := by
  rw [isFinite_iff_bits] at hb ⊢
  rw [mag_le_mag_iff] at h
  omega

/-! ## Rounding a finite number, and below or above one -/

/-- The binade of bits' magnitude, with the steps of its size, gives the bits back. -/
theorem roundMag_bitsMag {b : Nat} (hb : b < 0x7F800000) : roundMag (bitsMag b) 1 = b := by
  rw [roundMag_eq]
  rcases bits_cases b with h | ⟨e, f, hf, rfl⟩
  · have hlog : Nat.log2 b < 24 := by
      rcases Nat.eq_zero_or_pos b with rfl | h0
      · decide
      · exact (Nat.log2_lt (by omega)).mpr (by omega)
    have hk : binade b 1 = 0 := by rw [binade, Nat.div_one]; omega
    rw [bitsMag_of_lt h, hk, Nat.pow_zero, Nat.mul_one, roundQuot_one]
    omega
  · have hlog : Nat.log2 ((2 ^ 23 + f) * 2 ^ e) = 23 + e := by
      rw [Nat.log2_eq_iff (Nat.mul_pos (by omega) (Nat.two_pow_pos _)).ne',
        show 2 ^ (23 + e + 1) = 2 ^ 24 * 2 ^ e by ring, Nat.pow_add]
      exact ⟨Nat.mul_le_mul_right _ (by omega), Nat.mul_lt_mul_of_pos_right (by omega) (Nat.two_pow_pos _)⟩
    have hk : binade ((2 ^ 23 + f) * 2 ^ e) 1 = e := by rw [binade, Nat.div_one, hlog]; omega
    rw [bitsMag_of_split hf, hk, Nat.one_mul, roundQuot_mul_self _ (Nat.two_pow_pos _)]
    omega

theorem roundMag_mag {x : F32} (hx : isFinite x = true) : roundMag (mag x) 1 = x.toNat % 2 ^ 31 := by
  rw [mag_eq_bitsMag, roundMag_bitsMag ((isFinite_iff_bits x).mp hx)]

/-- A finite number is exact: rounding its value gives it again. -/
theorem roundF_mag {x : F32} (hx : isFinite x = true) : roundF (signBit x) (mag x) 1 = x := by
  rw [roundF, roundMag_mag hx, packF_self]

/-- What is at most a finite number rounds to at most that number. -/
theorem mag_roundF_le {num den : Nat} {b : F32} (hd : 0 < den) (hb : isFinite b = true) (h : num ≤ mag b * den) (neg : Bool) :
    mag (roundF neg num den) ≤ mag b := by
  have hr : roundMag num den ≤ b.toNat % 2 ^ 31 := by
    calc roundMag num den ≤ roundMag (mag b * den) (1 * den) := by rw [Nat.one_mul]; exact roundMag_mono hd h
      _ = b.toNat % 2 ^ 31 := by rw [roundMag_mul_right _ hd, roundMag_mag hb]
  rw [roundF, mag_packF _ (roundMag_lt _ _), mag_eq_bitsMag b]
  exact bitsMag_strictMono.monotone hr

/-- What is at least a finite number rounds to at least that number. -/
theorem le_mag_roundF {num den : Nat} {b : F32} (hd : 0 < den) (hb : isFinite b = true) (h : mag b * den ≤ num) (neg : Bool) :
    mag b ≤ mag (roundF neg num den) := by
  have hr : b.toNat % 2 ^ 31 ≤ roundMag num den := by
    calc b.toNat % 2 ^ 31 = roundMag (mag b * den) (1 * den) := by rw [roundMag_mul_right _ hd, roundMag_mag hb]
      _ ≤ roundMag num den := by rw [Nat.one_mul]; exact roundMag_mono hd h
  rw [roundF, mag_packF _ (roundMag_lt _ _), mag_eq_bitsMag b]
  exact bitsMag_strictMono.monotone hr

end Sys2Proof

/-! SUPPORT. What sums, products, quotients and the floor of finite numbers come to, and from that the ranges of the
sanitizing clamp, the wrap and the saturator. -/

namespace Sys2Proof

/-! ## Numbers and magnitudes -/

theorem sval_of_not_signBit {x : F32} (h : signBit x = false) : sval x = mag x := by simp [sval, h]

theorem sval_of_signBit {x : F32} (h : signBit x = true) : sval x = -mag x := by simp [sval, h]

theorem natAbs_sval (x : F32) : (sval x).natAbs = mag x := by
  unfold sval
  split <;> simp

/-- A number as its sign and its exact value. -/
theorem roundF_natAbs_sval {x : F32} (hx : isFinite x = true) : roundF (signBit x) (sval x).natAbs 1 = x := by
  rw [natAbs_sval, roundF_mag hx]

/-- The only number of magnitude 0 with a clear sign bit is +0.0. -/
theorem eq_zeroF_of_mag {x : F32} (hm : mag x = 0) (hs : signBit x = false) : x = zeroF := by
  have hx : isFinite x = true := isFinite_of_mag_le (b := zeroF) (by decide) (by omega)
  rw [← roundF_mag hx, hm, hs]
  decide

/-! ## Sums -/

theorem fAdd_of_finite {x y : F32} (hx : isFinite x = true) (hy : isFinite y = true) :
    fAdd x y = if sval x + sval y = 0 then (if signBit x && signBit y then negZeroF else zeroF)
      else roundF (decide (sval x + sval y < 0)) (sval x + sval y).natAbs 1 := by
  simp [fAdd, isNaN_of_isFinite hx, isNaN_of_isFinite hy, isInf_of_isFinite hx, isInf_of_isFinite hy]

/-- A sum is a zero or its exact value rounded. -/
theorem mag_fAdd_le {x y b : F32} (hx : isFinite x = true) (hy : isFinite y = true) (hb : isFinite b = true)
    (h : mag x + mag y ≤ mag b) : mag (fAdd x y) ≤ mag b := by
  have hsum : (sval x + sval y).natAbs ≤ mag b * 1 := by
    have := Int.natAbs_add_le (sval x) (sval y)
    rw [natAbs_sval, natAbs_sval] at this
    omega
  rw [fAdd_of_finite hx hy]
  split
  · split <;> exact Nat.zero_le _
  · exact mag_roundF_le (by decide) hb hsum _

/-- A sum of numbers that are not negative is no smaller than the first. -/
theorem le_mag_fAdd {x y : F32} (hx : isFinite x = true) (hy : isFinite y = true) (sx : signBit x = false)
    (sy : signBit y = false) : mag x ≤ mag (fAdd x y) := by
  rw [fAdd_of_finite hx hy, sval_of_not_signBit sx, sval_of_not_signBit sy]
  split
  · omega
  · exact le_mag_roundF (by decide) hx (by omega) _

/-- A sum whose exact value is not negative is a number with a clear sign bit, unless both operands are -0.0. -/
theorem fAdd_of_nonneg {x y : F32} (hx : isFinite x = true) (hy : isFinite y = true) (h : 0 ≤ sval x + sval y)
    (hs : (signBit x && signBit y) = false) : isNaN (fAdd x y) = false ∧ signBit (fAdd x y) = false := by
  rw [fAdd_of_finite hx hy, hs]
  split
  · decide
  · rw [decide_eq_false (show ¬ sval x + sval y < 0 by omega)]
    exact ⟨isNaN_roundF _ _ _, signBit_roundF _ _ _⟩

/-- Taking +0.0 from a number with a clear sign bit leaves it. -/
theorem fSub_zeroF {x : F32} (hx : isFinite x = true) (hs : signBit x = false) : fSub x zeroF = x := by
  have hz : sval (fNeg zeroF) = 0 := by decide
  rw [fSub, fAdd_of_finite hx (by decide), hz, Int.add_zero]
  split
  · next h =>
    have hm : mag x = 0 := by rw [← natAbs_sval, h]; rfl
    simpa [hs] using (eq_zeroF_of_mag hm hs).symm
  · rw [show decide (sval x < 0) = signBit x by rw [sval_of_not_signBit hs, hs]; simp, roundF_natAbs_sval hx]

/-! ## Products and quotients -/

theorem fMul_of_finite {x y : F32} (hx : isFinite x = true) (hy : isFinite y = true) :
    fMul x y = roundF (signBit x != signBit y) (mag x * mag y) (2 ^ 149) := by
  simp [fMul, isNaN_of_isFinite hx, isNaN_of_isFinite hy, isInf_of_isFinite hx, isInf_of_isFinite hy]

theorem mag_fMul_le {x y b : F32} (hx : isFinite x = true) (hy : isFinite y = true) (hb : isFinite b = true)
    (h : mag x * mag y ≤ mag b * 2 ^ 149) : mag (fMul x y) ≤ mag b := by
  rw [fMul_of_finite hx hy]
  exact mag_roundF_le (Nat.two_pow_pos _) hb h _

theorem signBit_fMul {x y : F32} (hx : isFinite x = true) (hy : isFinite y = true) :
    signBit (fMul x y) = (signBit x != signBit y) := by
  rw [fMul_of_finite hx hy, signBit_roundF]

theorem isNaN_fMul {x y : F32} (hx : isFinite x = true) (hy : isFinite y = true) : isNaN (fMul x y) = false := by
  rw [fMul_of_finite hx hy, isNaN_roundF]

theorem mag_fDiv_le {x y b : F32} (hx : isFinite x = true) (hy : isFinite y = true) (hb : isFinite b = true)
    (h0 : 0 < mag y) (h : mag x * 2 ^ 149 ≤ mag b * mag y) : mag (fDiv x y) ≤ mag b := by
  have hdiv : fDiv x y = roundF (signBit x != signBit y) (mag x * 2 ^ 149) (mag y) := by
    simp [fDiv, isNaN_of_isFinite hx, isNaN_of_isFinite hy, isInf_of_isFinite hx, isInf_of_isFinite hy, h0.ne']
  rw [hdiv]
  exact mag_roundF_le h0 hb h _

/-! ## The floor -/

theorem fFloor_of_finite {x : F32} (hx : isFinite x = true) :
    fFloor x = if signBit x then roundF true ((mag x + (2 ^ 149 - 1)) / 2 ^ 149 * 2 ^ 149) 1
      else roundF false (mag x / 2 ^ 149 * 2 ^ 149) 1 := by
  simp [fFloor, isNaN_of_isFinite hx, isInf_of_isFinite hx]

@[simp] theorem signBit_fFloor {x : F32} (hx : isFinite x = true) : signBit (fFloor x) = signBit x := by
  rw [fFloor_of_finite hx]
  cases signBit x <;> simp

/-- The largest finite number, a whole number. -/
def maxFinite : F32 := 0x7F7FFFFF#32

theorem mag_maxFinite : mag maxFinite = (2 ^ 24 - 1) * 2 ^ 104 * 2 ^ 149 := by decide +kernel

theorem mag_le_maxFinite {x : F32} (hx : isFinite x = true) : mag x ≤ mag maxFinite := by
  rw [mag_le_mag_iff]
  rw [isFinite_iff_bits] at hx
  exact Nat.le_of_lt_succ hx

/-- Rounded up to a whole number, a magnitude is still at most the largest finite one. -/
theorem ceil_le_maxFinite {m : Nat} (h : m ≤ mag maxFinite) : (m + (2 ^ 149 - 1)) / 2 ^ 149 * 2 ^ 149 ≤ mag maxFinite := by
  rw [mag_maxFinite] at h ⊢
  omega

theorem isFinite_fFloor {x : F32} (hx : isFinite x = true) : isFinite (fFloor x) = true := by
  have hmax : isFinite maxFinite = true := by decide
  have hle := mag_le_maxFinite hx
  refine isFinite_of_mag_le hmax ?_
  rw [fFloor_of_finite hx]
  split
  · exact mag_roundF_le (by decide) hmax (by rw [Nat.mul_one]; exact ceil_le_maxFinite hle) _
  · exact mag_roundF_le (by decide) hmax (by omega) _

/-- The floor is no larger than the number. -/
theorem sval_fFloor_le {x : F32} (hx : isFinite x = true) : sval (fFloor x) ≤ sval x := by
  cases hs : signBit x with
  | false =>
    rw [sval_of_not_signBit hs, sval_of_not_signBit ((signBit_fFloor hx).trans hs), fFloor_of_finite hx, hs]
    exact Int.ofNat_le.mpr (mag_roundF_le (by decide) hx (by omega) _)
  | true =>
    rw [sval_of_signBit hs, sval_of_signBit ((signBit_fFloor hx).trans hs), fFloor_of_finite hx, hs]
    exact Int.neg_le_neg (Int.ofNat_le.mpr (le_mag_roundF (by decide) hx (by omega) _))

/-- Below 1.0 the floor is +0.0. -/
theorem fFloor_of_lt_one {x : F32} (hx : isFinite x = true) (hs : signBit x = false) (h : mag x < 2 ^ 149) :
    fFloor x = zeroF := by
  rw [fFloor_of_finite hx, hs, Nat.div_eq_of_lt h, Nat.zero_mul, if_neg Bool.false_ne_true]
  decide

namespace Machine

/-! ## The wrap -/

theorem legalPhase_iff (p : F32) : legalPhase p = true ↔ isFinite p = true ∧ signBit p = false ∧ mag p < 2 ^ 149 := by
  have h1 : sval oneF = 2 ^ 149 := by decide
  have h0 : sval zeroF = 0 := by decide
  have hn : isNaN zeroF = false ∧ isNaN oneF = false := by decide
  constructor
  · intro h
    simp only [legalPhase, fLe, fLt, h1, h0, hn, Bool.and_eq_true, Bool.not_eq_true', decide_eq_true_eq, Bool.not_false,
      Bool.true_and, Bool.and_true] at h
    obtain ⟨⟨-, -, hlt⟩, hs⟩ := h
    rw [sval_of_not_signBit hs] at hlt
    have hlt' : mag p < 2 ^ 149 := by exact_mod_cast hlt
    exact ⟨isFinite_of_mag_le (b := oneF) (by decide) hlt'.le, hs, hlt'⟩
  · rintro ⟨hf, hs, hlt⟩
    simpa [legalPhase, fLe, fLt, h1, h0, hn, isNaN_of_isFinite hf, hs, sval_of_not_signBit hs] using hlt

/-- A number without a sign is a phase once 1.0 and more are put to +0.0. -/
theorem legalPhase_of_rest {r : F32} (hn : isNaN r = false) (hs : signBit r = false) :
    legalPhase (if fLe oneF r then zeroF else r) = true := by
  split
  case isTrue => decide
  case isFalse h1 =>
    have hlt : fLt r oneF = true := by
      by_contra hge
      rcases (fLt_eq_false_iff r oneF).mp (by simpa using hge) with h | h | h
      · exact h1 h
      · simp [h] at hn
      · exact absurd h (by decide)
    have h0 : sval zeroF = 0 := by decide
    have hz : isNaN zeroF = false := by decide
    simp [legalPhase, hlt, hs, fLe, hn, h0, hz, sval_of_not_signBit hs]

/-- R107: every wrapped word is a phase: what is taken from a number is its floor, so the rest has no sign, and a rest that
rounds to 1.0 is put to +0.0. -/
theorem legalPhase_wrap01 (x : F32) : legalPhase (wrap01 x) = true := by
  unfold wrap01
  split
  case isFalse => decide
  case isTrue hx =>
    have hfloor := sval_fFloor_le hx
    obtain ⟨hn, hs⟩ := fAdd_of_nonneg (x := x) (y := fNeg (fFloor x)) hx (by simpa using isFinite_fFloor hx)
      (by rw [sval_fNeg]; omega) (by simp [hx])
    exact legalPhase_of_rest hn hs

/-- A phase is wrapped already. -/
theorem wrap01_of_legalPhase {p : F32} (h : legalPhase p = true) : wrap01 p = p := by
  obtain ⟨hf, hs, hlt⟩ := (legalPhase_iff p).mp h
  have h1 : fLe oneF p = false := by
    have hp : fLt p oneF = true := by simp only [legalPhase, Bool.and_eq_true] at h; exact h.1.2
    simp only [fLt, fLe, Bool.and_eq_true, Bool.and_eq_false_iff, decide_eq_true_eq, decide_eq_false_iff_not] at hp ⊢
    exact .inr (by omega)
  simp [wrap01, hf, fFloor_of_lt_one hf hs hlt, fSub_zeroF hf hs, h1]

/-! ## The clamp -/

/-- The bounds and the NaN value of a range lie in it. -/
def Range.valid (b : Range) : Bool := inRange b b.lo && inRange b b.hi && inRange b b.nan

theorem inRange_clampN {b : Range} (hb : b.valid = true) (x : F32) : inRange b (clampN x b.lo b.hi b.nan) = true := by
  simp only [Range.valid, Bool.and_eq_true] at hb
  obtain ⟨⟨hlo, hhi⟩, hnan⟩ := hb
  obtain ⟨-, h⟩ | ⟨-, -, h⟩ | ⟨-, -, -, h⟩ | ⟨hx, h1, h2, h⟩ := clampN_cases x b.lo b.hi b.nan <;> rw [h]
  · exact hnan
  · exact hlo
  · exact hhi
  · simp only [inRange, fLe, Bool.and_eq_true, Bool.not_eq_true', decide_eq_true_eq] at hlo hhi ⊢
    simp only [fLt, hx, hlo, Bool.not_false, Bool.true_and, decide_eq_false_iff_not, Int.not_lt] at h1 h2
    exact ⟨⟨⟨hlo.1.1.1, hx⟩, h1⟩, ⟨hx, hhi.2.1.2⟩, h2⟩

theorem clampN_of_inRange {b : Range} {x : F32} (h : inRange b x = true) (n : F32) : clampN x b.lo b.hi n = x := by
  simp only [inRange, fLe, Bool.and_eq_true, Bool.not_eq_true', decide_eq_true_eq] at h
  obtain ⟨⟨⟨-, hx⟩, hlo⟩, -, hhi⟩ := h
  have h1 : fLt x b.lo = false := by simp [fLt, hlo]
  have h2 : fLt b.hi x = false := by simp [fLt, hhi]
  simp [clampN, hx, h1, h2]

/-! ## The saturator -/

/-- The fraction of R108. -/
def softClipFraction (x : F32) : F32 :=
  fDiv (fMul x (fAdd twentySevenF (fMul x x))) (fAdd twentySevenF (fMul nineF (fMul x x)))

/-- The saturator gives 1.0 or -1.0, or the fraction for a number within ±3.0; a NaN apart. -/
theorem softClip_cases {x : F32} (hx : isNaN x = false) :
    softClip x = oneF ∨ softClip x = fNeg oneF ∨ (mag x ≤ mag threeF ∧ softClip x = softClipFraction x) := by
  have hv : isNaN threeF = false ∧ isNaN (fNeg threeF) = false ∧ sval threeF = mag threeF ∧
      sval (fNeg threeF) = -mag threeF := by decide
  cases h3 : fLe threeF x with
  | true => exact .inl (by simp [softClip, h3])
  | false =>
    cases hm3 : fLe x (fNeg threeF) with
    | true => exact .inr (.inl (by simp [softClip, h3, hm3]))
    | false =>
      refine .inr (.inr ⟨?_, by simp [softClip, softClipFraction, h3, hm3]⟩)
      simp only [fLe, hx, hv, Bool.not_false, Bool.true_and, decide_eq_false_iff_not] at h3 hm3
      rw [← natAbs_sval x]
      omega

/-- The square of a number within ±3.0 is at most 9.0. -/
theorem mag_square_le_nine {x : F32} (h : mag x ≤ mag threeF) : mag (fMul x x) ≤ mag nineF := by
  have fx : isFinite x = true := isFinite_of_mag_le (by decide) h
  have hsq : mag threeF * mag threeF ≤ mag nineF * 2 ^ 149 := by decide
  exact mag_fMul_le fx fx (by decide) ((Nat.mul_le_mul h h).trans hsq)

/-- R108's numerator, |x·(27 + x²)|, is at most 108.0 there. -/
theorem mag_softClip_numerator_le {x : F32} (h : mag x ≤ mag threeF) :
    mag (fMul x (fAdd twentySevenF (fMul x x))) ≤ mag 0x42D80000#32 := by
  have fx : isFinite x = true := isFinite_of_mag_le (by decide) h
  have hx2 := mag_square_le_nine h
  have fx2 : isFinite (fMul x x) = true := isFinite_of_mag_le (by decide) hx2
  have h36 : mag twentySevenF + mag nineF ≤ mag 0x42100000#32 := by decide
  have hsum : mag (fAdd twentySevenF (fMul x x)) ≤ mag 0x42100000#32 :=
    mag_fAdd_le (by decide) fx2 (by decide) (by omega)
  have h108 : mag threeF * mag 0x42100000#32 ≤ mag 0x42D80000#32 * 2 ^ 149 := by decide
  exact mag_fMul_le fx (isFinite_of_mag_le (by decide) hsum) (by decide) ((Nat.mul_le_mul h hsum).trans h108)

/-- R108's denominator, 27 + 9x², lies in [27, 108] there. -/
theorem mag_softClip_denominator {x : F32} (h : mag x ≤ mag threeF) :
    let d := fAdd twentySevenF (fMul nineF (fMul x x))
    mag twentySevenF ≤ mag d ∧ mag d ≤ mag 0x42D80000#32 := by
  have fx : isFinite x = true := isFinite_of_mag_le (by decide) h
  have hx2 := mag_square_le_nine h
  have fx2 : isFinite (fMul x x) = true := isFinite_of_mag_le (by decide) hx2
  have h81 : mag nineF * mag nineF ≤ mag 0x42A20000#32 * 2 ^ 149 := by decide
  have hx9 : mag (fMul nineF (fMul x x)) ≤ mag 0x42A20000#32 :=
    mag_fMul_le (by decide) fx2 (by decide) ((Nat.mul_le_mul_left _ hx2).trans h81)
  have fx9 : isFinite (fMul nineF (fMul x x)) = true := isFinite_of_mag_le (by decide) hx9
  have hsign : signBit (fMul nineF (fMul x x)) = false := by
    rw [signBit_fMul (by decide) fx2, signBit_fMul fx fx, bne_self_eq_false]
    decide
  have h108 : mag twentySevenF + mag 0x42A20000#32 ≤ mag 0x42D80000#32 := by decide
  exact ⟨le_mag_fAdd (by decide) fx9 (by decide) hsign, mag_fAdd_le (by decide) fx9 (by decide) (by omega)⟩

/-- The saturator keeps every number within ±4.0: at most 108 over at least 27. -/
theorem mag_softClip_le {x : F32} (hx : isNaN x = false) : mag (softClip x) ≤ mag fourF := by
  rcases softClip_cases hx with h | h | ⟨h3, h⟩ <;> rw [h]
  · decide
  · decide
  · have hnum := mag_softClip_numerator_le h3
    obtain ⟨hlow, hhigh⟩ := mag_softClip_denominator h3
    have h27 : 0 < mag twentySevenF := by decide
    have h4 : mag 0x42D80000#32 * 2 ^ 149 ≤ mag fourF * mag twentySevenF := by decide
    refine mag_fDiv_le (isFinite_of_mag_le (by decide) hnum) (isFinite_of_mag_le (by decide) hhigh) (by decide)
      (by omega) ?_
    calc _ ≤ mag 0x42D80000#32 * 2 ^ 149 := Nat.mul_le_mul_right _ hnum
      _ ≤ mag fourF * mag twentySevenF := h4
      _ ≤ _ := Nat.mul_le_mul_left _ hlow

/-! ## Samples -/

theorem legalSample_of_mag_le {x : F32} (h : mag x ≤ mag 0x49800000#32) : legalSample x = true := by
  have hx := isNaN_of_isFinite (isFinite_of_mag_le (by decide) h)
  have hv : isNaN 0xC9800000#32 = false ∧ isNaN 0x49800000#32 = false ∧
      sval 0x49800000#32 = mag 0x49800000#32 ∧ sval 0xC9800000#32 = -mag 0x49800000#32 := by decide +kernel
  rw [← natAbs_sval x] at h
  simp only [legalSample, fLe, hx, hv, Bool.not_false, Bool.true_and, Bool.and_eq_true, decide_eq_true_eq]
  omega

theorem mag_le_one_of_unitRange {x : F32} (h : inRange unitRange x = true) : mag x ≤ mag oneF := by
  have hv : sval unitRange.lo = 0 ∧ sval unitRange.hi = mag oneF := by decide
  simp only [inRange, fLe, Bool.and_eq_true, decide_eq_true_eq, hv] at h
  rw [← natAbs_sval x]
  omega

/-- R254: the driven sample stays in [-2^20, 2^20], the sections' domain. -/
theorem legalSample_driveStage {x drive : F32} (hx : legalSample x = true) (hd : inRange unitRange drive = true) :
    legalSample (driveStage x drive) = true := by
  unfold driveStage
  split
  case isFalse => exact hx
  case isTrue =>
    have f1 : isFinite oneF = true := by decide
    have f9 : isFinite nineF = true := by decide
    have hd1 := mag_le_one_of_unitRange hd
    have h9 : mag (fMul nineF drive) ≤ mag nineF :=
      mag_fMul_le f9 (isFinite_of_mag_le f1 hd1) f9 (by
        have m1 : mag oneF = 2 ^ 149 := by decide
        rw [m1] at hd1
        exact Nat.mul_le_mul_left _ hd1)
    have h10 : mag (fAdd oneF (fMul nineF drive)) ≤ mag 0x41200000#32 :=
      mag_fAdd_le f1 (isFinite_of_mag_le f9 h9) (by decide) (by
        have : mag oneF + mag nineF ≤ mag 0x41200000#32 := by decide
        omega)
    have hn := isNaN_fMul (isFinite_of_legalSample hx) (isFinite_of_mag_le (by decide) h10)
    exact legalSample_of_mag_le ((mag_softClip_le hn).trans (by decide))

end Machine
end Sys2Proof

/-! SUPPORT. Sanitizing register by register, the host's write of a register as one step, and what one step can do. -/

namespace Sys2Proof.Machine

/-! ## Sanitizing -/

theorem sanitize_of_paramRange {r : Reg} {b : Range} (h : paramRange r = some b) (v : Word) :
    sanitize r v = clampN v b.lo b.hi b.nan := by
  cases r <;> cases h <;> rfl

theorem valid_of_paramRange {r : Reg} {b : Range} (h : paramRange r = some b) : b.valid = true := by
  cases r <;> cases h <;> decide

@[simp] theorem isFinite_finiteOrZero (v : F32) : isFinite (finiteOrZero v) = true := by
  unfold finiteOrZero
  split
  · assumption
  · decide

theorem finiteOrZero_of_isFinite {v : F32} (h : isFinite v = true) : finiteOrZero v = v := by simp [finiteOrZero, h]

theorem legalPhase_sanitize_opPhase (i : Fin 4) (v : Word) : legalPhase (sanitize (.opPhase i) v) = true := by
  simp only [sanitize]
  split
  · exact legalPhase_wrap01 v
  · decide

theorem sanitize_opPhase_of_legalPhase (i : Fin 4) {p : Word} (h : legalPhase p = true) : sanitize (.opPhase i) p = p := by
  simp [sanitize, ((legalPhase_iff p).mp h).1, wrap01_of_legalPhase h]

/-- The state registers other than the phases, each of which stores a finite word as it is (R25, R26, R31). -/
def isPlainState (r : Reg) : Prop := regKind r = .state ∧ ∀ i, r ≠ .opPhase i

theorem sanitize_of_isPlainState {r : Reg} (h : isPlainState r) (v : Word) : sanitize r v = finiteOrZero v := by
  obtain ⟨hk, hp⟩ := h
  cases r with
  | opPhase i => exact absurd rfl (hp i)
  | opPrev i | dcbX1 | dcbY1 | f1S | f2aS1 | f2aS2 | f2bS1 | f2bS2 => rfl
  | _ => cases hk

/-- How a register sanitizes: it saturates control fields, clamps to a range, wraps a phase, keeps a finite state, or, where
the host cannot write, answers the word itself. -/
theorem sanitize_kinds (r : Reg) :
    r = .synCtrl ∨ r = .fltCtrl ∨ (∃ b, paramRange r = some b) ∨ (∃ i, r = .opPhase i) ∨ isPlainState r ∨
      (¬ hostWritable r ∧ ∀ v, sanitize r v = v) := by
  cases r <;> simp [paramRange, isPlainState, hostWritable, regKind, sanitize]

/-- Settles O15: each kind of sanitizing lands in the words it keeps. -/
theorem storedValueIsStable : Obligations.StoredValueIsStable := by
  intro r v
  rcases sanitize_kinds r with rfl | rfl | ⟨b, hb⟩ | ⟨i, rfl⟩ | hp | ⟨-, hid⟩
  · simp [sanitize]
  · simp [sanitize]
  · simp only [sanitize_of_paramRange hb]
    exact clampN_of_inRange (inRange_clampN (valid_of_paramRange hb) v) _
  · exact sanitize_opPhase_of_legalPhase i (legalPhase_sanitize_opPhase i v)
  · simp only [sanitize_of_isPlainState hp]
    exact finiteOrZero_of_isFinite (isFinite_finiteOrZero v)
  · rw [hid, hid]

/-! ## A host's write of a register -/

theorem aligned_regAddr (r : Reg) : aligned (regAddr r) = true := by
  cases r with
  | opCoarse i | opFine i | opLevel i | opWarp i | opFold i | opFeedback i | opPhase i | opPrev i | algRom i =>
    revert i; decide
  | _ => decide

theorem hostWritable_ne_cmd {r : Reg} (h : hostWritable r) : r ≠ .cmd := by
  rintro rfl
  simp [hostWritable, regKind] at h

theorem hostWriteReg_of_hostWritable {r : Reg} (h : hostWritable r) (s : State) (v : Word) :
    hostWriteReg s r v = setReg s r (sanitize r v) := by
  rcases h with h | h <;> simp [hostWriteReg, h]

theorem busWrite_regAddr {r : Reg} (h : r ≠ .cmd) (v : Word) (s : State) :
    busWrite (regAddr r) v s = .next (hostWriteReg s r v) := by
  obtain ⟨i, ha, -⟩ | ⟨e, ha, -⟩ | ⟨q, -, ha, hw⟩ | ⟨hnone, -⟩ := busWrite_cases (regAddr r) v s
  · exact absurd (regAddr_injective ha) h
  · exact absurd (regAddr_injective ha) h
  · rw [hw, regAddr_injective ha]
  · simp [regAt_regAddr] at hnone

/-- R64 as one step: a pending write of a parameter or state register stores the sanitized word. -/
theorem step_hostWrite {s : State} {r : Reg} {v : Word} {rest : List HostEvent} (hr : hostWritable r)
    (hbus : s.bus = .write .w32 (regAddr r) v :: rest) :
    step s = .next (setReg { s with bus := rest, answer := none } r (sanitize r v)) := by
  simp only [step, hbus, perform, accessWellFormed, aligned_regAddr, beq_self_eq_true, Bool.and_self, if_true,
    busWrite_regAddr (hostWritable_ne_cmd hr), hostWriteReg_of_hostWritable hr]

/-- No register's value depends on what waits on the bus, on the last answer, or, STATUS apart, on STATUS. -/
theorem readReg_beside {r : Reg} (hr : r ≠ .status) (s : State) (bus : List HostEvent) (answer : Option Word)
    (status : Status) : readReg { s with bus := bus, answer := answer, status := status } r = readReg s r := by
  cases r with
  | status => exact absurd rfl hr
  | _ => rfl

@[simp] theorem readReg_bus_answer (s : State) (bus : List HostEvent) (answer : Option Word) (r : Reg) :
    readReg { s with bus := bus, answer := answer } r = readReg s r := by cases r <;> rfl

/-- A pending write of a parameter or state register leaves the sanitized word there. -/
theorem step_hostWrite_read {s : State} {r : Reg} {v : Word} {rest : List HostEvent} (hr : hostWritable r)
    (hbus : s.bus = .write .w32 (regAddr r) v :: rest) :
    ∃ t, step s = .next t ∧ busRead t (regAddr r) = sanitize r v :=
  ⟨_, step_hostWrite hr hbus, by rw [busRead_regAddr, readReg_setReg_same _ hr]⟩

theorem phaseAddrs_reg {a : Addr} (h : a ∈ phaseAddrs) : ∃ i, a = regAddr (.opPhase i) := by
  revert a
  decide

theorem plainStateAddrs_reg {a : Addr} (h : a ∈ plainStateAddrs) : ∃ r, a = regAddr r ∧ isPlainState r := by
  have : a ∈ [Reg.opPrev 0, .opPrev 1, .opPrev 2, .opPrev 3, .dcbX1, .dcbY1, .f1S, .f2aS1, .f2aS2, .f2bS1, .f2bS2].map
    regAddr := h
  simp only [List.map_cons, List.map_nil, List.mem_cons, List.not_mem_nil, or_false] at this
  rcases this with h | h | h | h | h | h | h | h | h | h | h <;> exact ⟨_, h, rfl, by simp⟩

theorem phaseAddrs_disjoint_plainStateAddrs : ∀ a ∈ phaseAddrs, a ∉ plainStateAddrs := by decide

/-- Settles O8: the step stores the sanitized word, which no other register's bytes see. -/
theorem hostWriteStoresSanitizedValue : Obligations.HostWriteStoresSanitizedValue := by
  refine ⟨fun s r v rest hr hbus => ?_, fun s a v rest ha hbus => ?_⟩
  · refine ⟨_, step_hostWrite hr hbus, ?_, bytesSameOutside_of_regs fun q hq => ?_, ?_, ?_, ?_⟩
    · rw [busRead_regAddr, readReg_setReg_same _ hr]
    · rw [readReg_setReg_other _ (by simpa using hq), readReg_bus_answer]
    all_goals simp
  · rcases ha with ha | ha
    · obtain ⟨i, rfl⟩ := phaseAddrs_reg ha
      obtain ⟨t, hstep, hread⟩ := step_hostWrite_read (.inr rfl) hbus
      refine ⟨t, hstep, fun hv => ?_, fun hv _ => ?_, fun _ hp => absurd hp (phaseAddrs_disjoint_plainStateAddrs _ ha)⟩
      · rw [hread]; simp [sanitize, hv, zeroF]
      · rw [hread]; simp [sanitize, hv]
    · obtain ⟨r, rfl, hr⟩ := plainStateAddrs_reg ha
      obtain ⟨t, hstep, hread⟩ := step_hostWrite_read (.inr hr.1) hbus
      rw [sanitize_of_isPlainState hr] at hread
      refine ⟨t, hstep, fun hv => ?_, fun _ hp => absurd ha (phaseAddrs_disjoint_plainStateAddrs _ hp), fun hv _ => ?_⟩
      · rw [hread]; simp [finiteOrZero, hv, zeroF]
      · rw [hread, finiteOrZero_of_isFinite hv]

/-! ## The control registers' fields -/

theorem extractLsb'_toNat_eq_div_mod (w : Word) (start len : Nat) :
    (w.extractLsb' start len).toNat = w.toNat / 2 ^ start % 2 ^ len := by
  rw [BitVec.extractLsb'_toNat, Nat.shiftRight_eq_div_pow]

theorem foldTypeNum_foldTypeOf (v : Nat) : foldTypeNum (foldTypeOf v) = min v 2 := by
  match v with
  | 0 | 1 => rfl
  | n + 2 => simp [foldTypeOf, foldTypeNum]

/-- The fields of SYN_CTRL's word are the fields it is made of. -/
theorem synCtrlWord_fields (c : SynCtrl) :
    ((synCtrlWord c).extractLsb' 0 4).toNat = c.alg.val ∧ (synCtrlWord c).extractLsb' 4 4 = c.fmode ∧
      (∀ i : Fin 4, ((synCtrlWord c).extractLsb' (8 + 2 * i.val) 2).toNat = foldTypeNum c.ftype[i]) ∧
      (synCtrlWord c).extractLsb' 16 16 = 0#16 := by
  have h0 := foldTypeNum_le c.ftype[0]
  have h1 := foldTypeNum_le c.ftype[1]
  have h2 := foldTypeNum_le c.ftype[2]
  have h3 := foldTypeNum_le c.ftype[3]
  have ha := c.alg.isLt
  have hf := c.fmode.isLt
  refine ⟨?_, BitVec.eq_of_toNat_eq ?_, fun i => ?_, BitVec.eq_of_toNat_eq ?_⟩ <;>
    rw [extractLsb'_toNat_eq_div_mod, synCtrlWord_toNat]
  · omega
  · omega
  · fin_cases i <;> simp <;> omega
  · rw [BitVec.toNat_ofNat]; omega

/-- What SYN_CTRL stores of each field of a written word (R22). -/
theorem synCtrlOf_fields (v : Word) :
    (synCtrlOf v).alg.val = min (v.extractLsb' 0 4).toNat 10 ∧ (synCtrlOf v).fmode = v.extractLsb' 4 4 ∧
      ∀ i : Fin 4, foldTypeNum (synCtrlOf v).ftype[i] = min (v.extractLsb' (8 + 2 * i.val) 2).toNat 2 := by
  refine ⟨?_, BitVec.eq_of_toNat_eq ?_, fun i => ?_⟩ <;> rw [extractLsb'_toNat_eq_div_mod]
  · simp [synCtrlOf]
  · simp [synCtrlOf]
  · simp [synCtrlOf, foldTypeNum_foldTypeOf]

/-- Settles O12: SYN_CTRL reads the word made of the fields it stored. -/
theorem synCtrlFieldsSaturate : Obligations.SynCtrlFieldsSaturate := by
  intro s v rest hbus
  obtain ⟨t, hstep, hread⟩ := step_hostWrite_read (r := .synCtrl) (.inl rfl) hbus
  replace hread : busRead t 0x000#9 = synCtrlWord (synCtrlOf v) := hread
  obtain ⟨halg, hfmode, hftype, hreserved⟩ := synCtrlWord_fields (synCtrlOf v)
  obtain ⟨valg, vfmode, vftype⟩ := synCtrlOf_fields v
  rw [← hread] at halg hfmode hftype hreserved
  exact ⟨t, hstep, halg.trans valg, hfmode.trans vfmode, fun i hi => (hftype ⟨i, hi⟩).trans (vftype ⟨i, hi⟩), hreserved⟩

theorem modeWord_toNat (m : Fin 12) : (modeWord m).toNat = m.val := by
  simp only [modeWord, BitVec.toNat_ofNat]
  omega

theorem modeOf_val (v : Word) : (modeOf v).val = min (v.extractLsb' 0 4).toNat 11 := by
  simp [modeOf]

/-- Settles O13: the mode held is the saturated field, and the mode table is the default one. -/
theorem fltCtrlModeSaturates : Obligations.FltCtrlModeSaturates := by
  refine ⟨fun s v rest hbus => ?_, by decide⟩
  have hstep := step_hostWrite (r := .fltCtrl) (.inl rfl) hbus
  have hmode : modeOf (sanitize .fltCtrl v) = modeOf v := modeOf_modeWord _
  refine ⟨_, hstep, ?_, ?_⟩
  · rw [show (0x100#9 : Addr) = regAddr .fltCtrl from rfl, busRead_regAddr, readReg_setReg_same _ (.inl rfl)]
    exact (modeWord_toNat _).trans (modeOf_val v)
  · exact (congrArg Fin.val hmode).trans (modeOf_val v)

end Sys2Proof.Machine

/-! SUPPORT. What one step leaves in the registers, and the register invariant: it is said register by register, so that a
step keeps it by what it does to the registers it writes. -/

namespace Sys2Proof.Machine

/-! ## One step -/

theorem opcode_of_decodeOp {n : Nat} {i : Instr} (h : decodeOp n = .legal i) : n = opcode i := by
  unfold decodeOp at h
  split at h <;> cases h <;> rfl

/-- A word that decodes is its command's encoding (R80, R81). -/
theorem encode_of_decode {w : Word} {i : Instr} (h : decode w = .legal i) : w = encode i := by
  unfold decode at h
  split at h
  case isFalse => cases h
  case isTrue hrsv =>
    have hop := opcode_of_decodeOp h
    simp only [rsvField, opField] at hrsv hop
    apply BitVec.eq_of_toNat_eq
    have hcode : opcode i < 2 ^ 32 := by cases i <;> decide
    rw [encode, BitVec.toNat_ofNat, Nat.mod_eq_of_lt hcode, ← hop]
    omega

/-- What one step can leave: the registers as they were but for STATUS; one register written by the host; the reset values;
or what a command left, of a CMD write of its word. -/
theorem step_next_cases {s t : State} (h : step s = .next t) :
    (∃ bus answer status, t = { s with bus := bus, answer := answer, status := status }) ∨
    (∃ r v rest, hostWritable r ∧ s.bus = .write .w32 (regAddr r) v :: rest ∧
      t = setReg { s with bus := rest, answer := none } r (sanitize r v)) ∨
    (∃ rest, s.bus = .reset :: rest ∧ t = hardwareReset { s with bus := rest }) ∨
    (∃ i rest, s.bus = .write .w32 (regAddr .cmd) (encode i) :: rest ∧
      exec i { s with bus := rest, answer := none } = .next t) := by
  obtain ⟨-, hs⟩ | ⟨e, rest, hbus, hs⟩ := step_cases s <;> rw [hs] at h
  · cases h
    exact .inl ⟨s.bus, s.answer, s.status, rfl⟩
  obtain ⟨a, -, -, hp⟩ | ⟨w, a, -, -, hp⟩ | ⟨a, v, rfl, -, hp⟩ | ⟨w, a, v, -, -, hp⟩ | ⟨rfl, hp⟩ :=
    perform_cases e { s with bus := rest } <;> rw [hp] at h
  · cases h
    exact .inl ⟨_, _, _, rfl⟩
  · cases h
    exact .inl ⟨_, _, _, rfl⟩
  · obtain ⟨i, rfl, hd, hw⟩ | ⟨e, -, -, hw⟩ | ⟨r, -, rfl, hw⟩ | ⟨-, hw⟩ :=
      busWrite_cases a v { s with bus := rest, answer := none } <;> rw [hw] at h
    · exact .inr (.inr (.inr ⟨i, rest, encode_of_decode hd ▸ hbus, h⟩))
    · cases h
      exact .inl ⟨_, _, _, rfl⟩
    · obtain ⟨hr, hv⟩ | ⟨-, hv⟩ | ⟨-, -, hv⟩ := hostWriteReg_cases { s with bus := rest, answer := none } r v <;>
        rw [hv] at h <;> cases h
      · exact .inr (.inl ⟨r, v, rest, hr, hbus, rfl⟩)
      · exact .inl ⟨_, _, _, rfl⟩
      · exact .inl ⟨_, _, _, rfl⟩
    · cases h
      exact .inl ⟨_, _, _, rfl⟩
  · cases h
    exact .inl ⟨_, _, _, rfl⟩
  · cases h
    exact .inr (.inr (.inl ⟨rest, hbus, rfl⟩))

/-- The registers a command may write (R200 to R203, R258, R259). -/
def writtenRegs : Instr → List Reg
  | .nop => []
  | .synStep => opStateRegs ++ [.dcbX1, .dcbY1, .synOut]
  | .synResetOps => opStateRegs
  | .synResetDcb => [.dcbX1, .dcbY1]
  | .synReset => opStateRegs ++ [.dcbX1, .dcbY1]
  | .fltStep => sectionRegs ++ [.fltOut, .fltLastMode]
  | .fltReset => sectionRegs

theorem mem_opStateRegs_iff (r : Reg) : r ∈ opStateRegs ↔ ∃ i, r = .opPhase i ∨ r = .opPrev i := by
  constructor
  · intro h
    simp only [opStateRegs, List.mem_cons, List.not_mem_nil, or_false] at h
    rcases h with h | h | h | h | h | h | h | h
    iterate 4 exact ⟨_, .inl h⟩
    iterate 4 exact ⟨_, .inr h⟩
  · rintro ⟨i, rfl | rfl⟩ <;> revert i <;> decide

/-- R201: zeroing the operators puts +0.0 into their state registers alone. -/
theorem readReg_zeroOps (s : State) (r : Reg) :
    readReg { s with syn := zeroOps s.syn } r = if r ∈ opStateRegs then zeroF else readReg s r := by
  simp only [mem_opStateRegs_iff]
  cases r with
  | opCoarse i | opFine i | opLevel i | opWarp i | opFold i | opFeedback i | opPhase i | opPrev i =>
    simp only [readReg, zeroOps_op]
    simp
  | _ => simp [readReg, zeroOps]

/-- R202: zeroing the DC blocker puts +0.0 into its two registers alone. -/
theorem readReg_zeroDcb (s : State) (r : Reg) :
    readReg { s with syn := zeroDcb s.syn } r = if r ∈ [Reg.dcbX1, .dcbY1] then zeroF else readReg s r := by
  cases r <;> simp [readReg, zeroDcb]

/-- R259: zeroing the sections puts +0.0 into their five registers alone. -/
theorem readReg_zeroSections (s : State) (r : Reg) :
    readReg { s with flt := zeroSections s.flt } r = if r ∈ sectionRegs then zeroF else readReg s r := by
  cases r <;> simp [readReg, zeroSections, sectionRegs]

/-- A reset command puts +0.0 into each register it writes, and leaves the others. -/
theorem readReg_exec_reset {i : Instr} (hi : i ∈ [Instr.synResetOps, .synResetDcb, .synReset, .fltReset]) {s t : State}
    (h : exec i s = .next t) (r : Reg) : readReg t r = if r ∈ writtenRegs i then zeroF else readReg s r := by
  simp only [List.mem_cons, List.not_mem_nil, or_false] at hi
  rcases hi with rfl | rfl | rfl | rfl <;> cases h
  · exact readReg_zeroOps s r
  · exact readReg_zeroDcb s r
  · have hboth := readReg_zeroDcb { s with syn := zeroOps s.syn } r
    rw [readReg_zeroOps] at hboth
    simp only [writtenRegs, List.mem_append]
    refine hboth.trans ?_
    split_ifs <;> tauto
  · exact readReg_zeroSections s r

/-- The filter's parameters and mode are not written by its step. -/
theorem fltCompute_params (c : Config) (k : Nat) (P : Filter) :
    let Q := fltCompute c k P
    (Q.mode = P.mode ∧ Q.cutoff = P.cutoff ∧ Q.damp = P.damp ∧ Q.drive = P.drive ∧ Q.dt = P.dt) ∧ Q.input = P.input := by
  simp only [fltCompute]
  split <;> simp [runOne, runTwo, runCas]

/-- A SYN_STEP leaves the registers it does not write. -/
theorem readReg_synStep_of_not_mem (c : Config) (s : State) {r : Reg} (hr : r ∉ writtenRegs .synStep) :
    readReg (synStep c s) r = readReg s r := by
  simp only [writtenRegs, List.mem_append, mem_opStateRegs_iff] at hr
  cases r with
  | opPhase i | opPrev i => exact absurd (.inl ⟨i, by simp⟩) hr
  | synOut | dcbX1 | dcbY1 => simp at hr
  | opCoarse i | opFine i | opLevel i | opWarp i | opFold i | opFeedback i => simp only [readReg, synStep, synStore_op]
  | _ => rfl

/-- A FLT_STEP leaves the registers it does not write. -/
theorem readReg_fltStep_of_not_mem (c : Config) (s : State) {r : Reg} (hr : r ∉ writtenRegs .fltStep) :
    readReg (fltStep c s) r = readReg s r := by
  obtain ⟨⟨hmode, hcutoff, hdamp, hdrive, hdt⟩, hinput⟩ := fltCompute_params c s.freeIdx s.flt
  cases r with
  | fltCtrl | fltCutoff | fltDamp | fltDrive | fltDt | fltIn => simp [readReg, fltStep, *]
  | f1S | f2aS1 | f2aS2 | f2bS1 | f2bS2 | fltOut | fltLastMode => exact absurd (by decide) hr
  | _ => rfl

/-- Every command leaves the registers it does not write. -/
theorem readReg_exec_of_not_mem {i : Instr} {s t : State} (h : exec i s = .next t) {r : Reg} (hr : r ∉ writtenRegs i) :
    readReg t r = readReg s r := by
  cases i with
  | nop => cases h; rfl
  | synStep => cases h; exact readReg_synStep_of_not_mem _ s hr
  | fltStep => cases h; exact readReg_fltStep_of_not_mem _ s hr
  | synResetOps | synResetDcb | synReset | fltReset => rw [readReg_exec_reset (by decide) h, if_neg hr]

/-! ## The output registers -/

/-- A register that the host cannot write and that one command alone writes changes in a step only by that command or by a
reset. -/
theorem step_changes_only_by {r : Reg} {i : Instr} (hr : ¬ hostWritable r) (hst : r ≠ .status)
    (hi : ∀ j, r ∈ writtenRegs j → j = i) {s t : State} (h : step s = .next t) (hne : readReg t r ≠ readReg s r) :
    ∃ e rest, s.bus = e :: rest ∧ (e = .write .w32 0x1F8#9 (encode i) ∨ e = .reset) := by
  obtain ⟨bus, answer, status, rfl⟩ | ⟨q, v, rest, hq, -, rfl⟩ | ⟨rest, hbus, -⟩ | ⟨j, rest, hbus, hexec⟩ :=
    step_next_cases h
  · exact absurd (readReg_beside hst s bus answer status) hne
  · have hrq : r ≠ q := by rintro rfl; exact hr hq
    exact absurd (by rw [readReg_setReg_other _ hrq, readReg_bus_answer]) hne
  · exact ⟨_, rest, hbus, .inr rfl⟩
  · have hmem : r ∈ writtenRegs j := by
      by_contra hnot
      exact hne (by rw [readReg_exec_of_not_mem hexec hnot, readReg_bus_answer])
    exact ⟨_, rest, hbus, .inl (by rw [← hi j hmem]; rfl)⟩

/-- Settles O52: of the commands only SYN_STEP writes SYN_OUT, and only FLT_STEP writes FLT_OUT and FLT_LAST_MODE. -/
theorem outputsWrittenOnlyByTheirStep : Obligations.OutputsWrittenOnlyByTheirStep := by
  have hsyn : ∀ j, .synOut ∈ writtenRegs j → j = .synStep := by intro j; cases j <;> decide
  have hout : ∀ j, .fltOut ∈ writtenRegs j → j = .fltStep := by intro j; cases j <;> decide
  have hmode : ∀ j, .fltLastMode ∈ writtenRegs j → j = .fltStep := by intro j; cases j <;> decide
  refine fun s t h => ⟨fun hne => ?_, fun hne => ?_⟩
  · exact step_changes_only_by (by simp [hostWritable, regKind]) (by decide) hsyn h hne
  · rcases hne with hne | hne
    · exact step_changes_only_by (by simp [hostWritable, regKind]) (by decide) hout h hne
    · exact step_changes_only_by (by simp [hostWritable, regKind]) (by decide) hmode h hne

end Sys2Proof.Machine

/-! SUPPORT. The register invariant, register by register: what each register may hold, and why the host's writes, the
reset values and every command leave it so. -/

namespace Sys2Proof.Machine

/-- What the register invariant asks of a register's value. -/
def regLegal (r : Reg) (w : Word) : Bool :=
  match r with
  | .opPhase _ => legalPhase w
  | .f1S | .f2aS1 | .f2aS2 | .f2bS1 | .f2bS2 | .fltOut => isFinite w
  | .algRom a => w == machineConfig.algTable a
  | _ =>
    match paramRange r with
    | some b => inRange b w
    | none => true

theorem regLegal_of_paramRange {r : Reg} {b : Range} (h : paramRange r = some b) (w : Word) :
    regLegal r w = inRange b w := by
  cases r <;> cases h <;> rfl

theorem regLegal_of_mem_sections {r : Reg} (h : r ∈ sectionRegs ++ [.fltOut]) (w : Word) : regLegal r w = isFinite w := by
  simp only [sectionRegs, List.mem_append, List.mem_cons, List.not_mem_nil, or_false] at h
  rcases h with (rfl | rfl | rfl | rfl | rfl) | rfl <;> rfl

/-- The register invariant asks of each register its own value's legality. -/
theorem registerInv_iff (s : State) : RegisterInv s ↔ ∀ r, regLegal r (readReg s r) = true := by
  constructor
  · rintro ⟨hparams, hphases, hfilter, hrom⟩ r
    cases r with
    | opPhase i => exact hphases i
    | f1S | f2aS1 | f2aS2 | f2bS1 | f2bS2 | fltOut => exact hfilter _ (by decide)
    | algRom a => simpa [regLegal] using hrom a
    | synCtrl | synOut | opPrev i | dcbX1 | dcbY1 | fltCtrl | fltLastMode | cmd | status => rfl
    | _ => exact hparams _ _ rfl
  · intro h
    refine ⟨fun r b hb => ?_, fun i => h (.opPhase i), fun r hr => ?_, fun a => ?_⟩
    · rw [← regLegal_of_paramRange hb]; exact h r
    · rw [← regLegal_of_mem_sections hr]; exact h r
    · simpa [regLegal] using h (.algRom a)

/-- A step keeps the invariant when the registers it writes are left legal. -/
theorem registerInv_of_written {rs : List Reg} {s t : State} (hs : RegisterInv s)
    (hframe : ∀ r, r ∉ rs → readReg t r = readReg s r) (hwritten : ∀ r ∈ rs, regLegal r (readReg t r) = true) :
    RegisterInv t := by
  rw [registerInv_iff] at hs ⊢
  intro r
  by_cases hr : r ∈ rs
  · exact hwritten r hr
  · rw [hframe r hr]; exact hs r

/-! ## Reset, STATUS and the host's writes -/

theorem registerInv_reset : RegisterInv State.reset := by
  rw [registerInv_iff]
  intro r
  cases r with
  | algRom a => simp [regLegal, readReg, State.reset]
  | opCoarse i | opFine i | opLevel i | opWarp i | opFold i | opFeedback i | opPhase i | opPrev i => revert i; decide
  | _ => decide

theorem registerInv_beside {s : State} (hs : RegisterInv s) (bus : List HostEvent) (answer : Option Word)
    (status : Status) : RegisterInv { s with bus := bus, answer := answer, status := status } :=
  registerInv_of_written (rs := [.status]) hs (fun _ hr => readReg_beside (by simpa using hr) s bus answer status)
    (by simp [regLegal, paramRange])

theorem registerInv_hardwareReset (s : State) : RegisterInv (hardwareReset s) :=
  registerInv_of_written (rs := []) registerInv_reset (fun r _ => by cases r <;> rfl) (by simp)

/-- Any finite value may stand in a plain state register. -/
theorem regLegal_of_isPlainState {r : Reg} (hr : isPlainState r) {w : Word} (hw : isFinite w = true) :
    regLegal r w = true := by
  obtain ⟨hk, hp⟩ := hr
  cases r with
  | opPhase i => exact absurd rfl (hp i)
  | f1S | f2aS1 | f2aS2 | f2bS1 | f2bS2 => exact hw
  | opPrev i | dcbX1 | dcbY1 => rfl
  | _ => cases hk

/-- R21: what sanitizing leaves is legal in its register. -/
theorem regLegal_sanitize {r : Reg} (hr : hostWritable r) (v : Word) : regLegal r (sanitize r v) = true := by
  rcases sanitize_kinds r with rfl | rfl | ⟨b, hb⟩ | ⟨i, rfl⟩ | hp | ⟨hno, -⟩
  · rfl
  · rfl
  · rw [regLegal_of_paramRange hb, sanitize_of_paramRange hb]
    exact inRange_clampN (valid_of_paramRange hb) v
  · exact legalPhase_sanitize_opPhase i v
  · rw [sanitize_of_isPlainState hp]
    exact regLegal_of_isPlainState hp (isFinite_finiteOrZero v)
  · exact absurd hr hno

theorem registerInv_setReg {s : State} (hs : RegisterInv s) {r : Reg} (hr : hostWritable r) (v : Word) :
    RegisterInv (setReg s r (sanitize r v)) := by
  refine registerInv_of_written (rs := [r]) hs (fun q hq => readReg_setReg_other s (by simpa using hq) _) fun q hq => ?_
  obtain rfl : q = r := by simpa using hq
  rw [readReg_setReg_same s hr]
  exact regLegal_sanitize hr v

/-! ## The commands -/

/-- The registers a reset command writes may hold +0.0. -/
theorem regLegal_zeroF {i : Instr} (hi : i ∈ [Instr.synResetOps, .synResetDcb, .synReset, .fltReset]) :
    ∀ r ∈ writtenRegs i, regLegal r zeroF = true := by
  revert i
  decide

theorem registerInv_exec_reset {i : Instr} (hi : i ∈ [Instr.synResetOps, .synResetDcb, .synReset, .fltReset])
    {s t : State} (hs : RegisterInv s) (h : exec i s = .next t) : RegisterInv t :=
  registerInv_of_written hs (fun _ hr => readReg_exec_of_not_mem h hr) fun r hr => by
    rw [readReg_exec_reset hi h, if_pos hr]
    exact regLegal_zeroF hi r hr

/-- R164: a pass advances each operator's accumulator once. -/
theorem operatorPass_phase (c : Config) (P : Synth) (e : Word) (v : Vector Voice 4) (i : Fin 4) :
    (operatorPass c P e v).1[i].phase = advancePhase P i v[i].phase := by
  fin_cases i <;> simp [operatorPass, runPass, evalOrder, evalOp]

/-- What a SYN_STEP leaves in a phase register is wrapped. -/
theorem legalPhase_synStep (c : Config) (s : State) (i : Fin 4) :
    legalPhase (readReg (synStep c s) (.opPhase i)) = true := by
  simp only [readReg, synStep, synStore_op, synCompute, operatorPass_phase, advancePhase]
  generalize fAdd _ _ = x
  have hw := legalPhase_wrap01 x
  rwa [sealNaN_of_not_isNaN (isNaN_of_isFinite ((legalPhase_iff _).mp hw).1)]

theorem registerInv_synStep {s : State} (hs : RegisterInv s) (c : Config) : RegisterInv (synStep c s) := by
  refine registerInv_of_written hs (fun _ hr => readReg_synStep_of_not_mem c s hr) fun r hr => ?_
  simp only [writtenRegs, List.mem_append, mem_opStateRegs_iff, List.mem_cons, List.not_mem_nil, or_false] at hr
  rcases hr with ⟨i, rfl | rfl⟩ | rfl | rfl | rfl
  · exact legalPhase_synStep c s i
  all_goals rfl

/-! ## FLT_STEP -/

/-- The filter's parameters lie in the ranges of R29, which are the sections' domain. -/
structure FilterParamsLegal (P : Filter) : Prop where
  period : legalPeriod P.dt = true
  cutoff : legalCutoff P.cutoff = true
  damping : legalDamping P.damp = true

/-- The section states and FLT_OUT are finite. -/
structure FilterStateFinite (P : Filter) : Prop where
  f1S : isFinite P.f1S = true
  f2aS1 : isFinite P.f2aS1 = true
  f2aS2 : isFinite P.f2aS2 = true
  f2bS1 : isFinite P.f2bS1 = true
  f2bS2 : isFinite P.f2bS2 = true
  out : isFinite P.out = true

theorem filterStateFinite_of_registerInv {s : State} (hs : RegisterInv s) : FilterStateFinite s.flt := by
  have h := (registerInv_iff s).mp hs
  exact ⟨h .f1S, h .f2aS1, h .f2aS2, h .f2bS1, h .f2bS2, h .fltOut⟩

theorem filterParamsLegal_of_registerInv {s : State} (hs : RegisterInv s) : FilterParamsLegal s.flt := by
  have h := (registerInv_iff s).mp hs
  exact ⟨h .fltDt, h .fltCutoff, h .fltDamp⟩

theorem filterParamsLegal_modeChange {P : Filter} (h : FilterParamsLegal P) : FilterParamsLegal (modeChange P) := by
  obtain ⟨hT, hc, hz⟩ := h
  exact ⟨by simpa using hT, by simpa using hc, by simpa using hz⟩

/-- R256: a mode change puts +0.0 into the section states. -/
theorem filterStateFinite_modeChange {P : Filter} (h : FilterStateFinite P) : FilterStateFinite (modeChange P) := by
  have h0 : isFinite zeroF = true := by decide
  unfold modeChange
  split
  · exact h
  · exact ⟨h0, h0, h0, h0, h0, h.out⟩

/-- A finite result is stored as it is. -/
theorem isFinite_sealNaN {x : F32} (h : isFinite x = true) (k : Nat) (r : Reg) : isFinite (sealNaN k r x) = true := by
  rwa [sealNaN_of_not_isNaN (isNaN_of_isFinite h)]

/-- R231 property 1 of the one-pole sections. -/
theorem isFinite_sec1 {f : FilterParts} (hf : FilterContract f) {T fc : F32} (hT : legalPeriod T = true)
    (hc : legalCutoff fc = true) {s x : F32} (hs : isFinite s = true) (hx : legalSample x = true) (ty : FilterType) :
    let r := sec1 f ty s x (fd1 f T fc)
    isFinite r.s = true ∧ isFinite r.y = true := by
  obtain ⟨⟨-, -, hsec1, -⟩, -⟩ := hf
  exact hsec1 T fc ty s x hT hc hs hx

/-- R231 property 1 of the two-pole sections. -/
theorem isFinite_sec2 {f : FilterParts} (hf : FilterContract f) {T fc zeta : F32} (hT : legalPeriod T = true)
    (hc : legalCutoff fc = true) (hz : legalDamping zeta = true) {s : Pair} (h1 : isFinite s.s1 = true)
    (h2 : isFinite s.s2 = true) {x : F32} (hx : legalSample x = true) (ty : FilterType) :
    let r := sec2 f ty s x (fd2 f T fc zeta ty)
    isFinite r.s.s1 = true ∧ isFinite r.s.s2 = true ∧ isFinite r.y = true := by
  obtain ⟨⟨-, -, -, hsec2⟩, -⟩ := hf
  exact hsec2 T fc zeta ty s x hT hc hz h1 h2 hx

section
variable {c : Config} (hcontract : FilterContract c.toFilterParts) {P : Filter} (hparams : FilterParamsLegal P)
  (hstate : FilterStateFinite P) {x : F32} (hx : legalSample x = true)
include hcontract hparams hstate hx

/-- R231 property 1 on path ONE. -/
theorem filterStateFinite_runOne (k : Nat) (ty : FilterType) : FilterStateFinite (runOne c k ty x P) := by
  obtain ⟨hs, hy⟩ := isFinite_sec1 hcontract hparams.period hparams.cutoff hstate.f1S hx ty
  exact { hstate with
    f1S := isFinite_sealNaN (isFinite_flushDenormal hs) _ _
    out := isFinite_sealNaN hy _ _ }

/-- R231 property 1 on path TWO. -/
theorem filterStateFinite_runTwo (k : Nat) (ty : FilterType) : FilterStateFinite (runTwo c k ty x P) := by
  obtain ⟨hs1, hs2, hy⟩ := isFinite_sec2 hcontract hparams.period hparams.cutoff hparams.damping
    (s := ⟨P.f2aS1, P.f2aS2⟩) hstate.f2aS1 hstate.f2aS2 hx ty
  exact { hstate with
    f2aS1 := isFinite_sealNaN (isFinite_flushDenormal hs1) _ _
    f2aS2 := isFinite_sealNaN (isFinite_flushDenormal hs2) _ _
    out := isFinite_sealNaN hy _ _ }

/-- R231 property 1 for section A of path CAS, and R261 for section B, whose input has no bound. -/
theorem filterStateFinite_runCas (k : Nat) (ty : FilterType) : FilterStateFinite (runCas c k ty x P) := by
  obtain ⟨ha1, ha2, -⟩ := isFinite_sec2 hcontract hparams.period hparams.cutoff hparams.damping
    (s := ⟨P.f2aS1, P.f2aS2⟩) hstate.f2aS1 hstate.f2aS2 hx ty
  obtain ⟨hb1, hb2, hy⟩ := isFinite_sectionB hcontract hparams.period hparams.cutoff hparams.damping
    (s := ⟨P.f2bS1, P.f2bS2⟩) hstate.f2bS1 hstate.f2bS2 ty
    (sec2 c.toFilterParts ty ⟨P.f2aS1, P.f2aS2⟩ x (fd2 c.toFilterParts P.dt P.cutoff P.damp ty)).y
  exact { hstate with
    f2aS1 := isFinite_sealNaN (isFinite_flushDenormal ha1) _ _
    f2aS2 := isFinite_sealNaN (isFinite_flushDenormal ha2) _ _
    f2bS1 := isFinite_sealNaN (isFinite_flushDenormal hb1) _ _
    f2bS2 := isFinite_sealNaN (isFinite_flushDenormal hb2) _ _
    out := isFinite_sealNaN hy _ _ }

end

/-- On every path a FLT_STEP's body keeps the section states and FLT_OUT finite, for parts that meet R231. -/
theorem filterStateFinite_fltCompute {c : Config} (hcontract : FilterContract c.toFilterParts) {P : Filter}
    (hparams : FilterParamsLegal P) (hstate : FilterStateFinite P) (hinput : legalSample P.input = true)
    (hdrive : inRange unitRange P.drive = true) (k : Nat) : FilterStateFinite (fltCompute c k P) := by
  have hp := filterParamsLegal_modeChange hparams
  have hs := filterStateFinite_modeChange hstate
  have hx := legalSample_driveStage hinput hdrive
  simp only [fltCompute]
  split
  · exact filterStateFinite_runOne hcontract hp hs hx k _
  · exact filterStateFinite_runTwo hcontract hp hs hx k _
  · exact filterStateFinite_runCas hcontract hp hs hx k _

theorem registerInv_fltStep {s : State} (hs : RegisterInv s) : RegisterInv (fltStep machineConfig s) := by
  refine registerInv_of_written hs (fun _ hr => readReg_fltStep_of_not_mem _ s hr) fun r hr => ?_
  have h := (registerInv_iff s).mp hs
  have hfin := filterStateFinite_fltCompute (c := machineConfig) machineFilter_meets (filterParamsLegal_of_registerInv hs)
    (filterStateFinite_of_registerInv hs) (h .fltIn) (h .fltDrive) s.freeIdx
  simp only [writtenRegs, sectionRegs, List.mem_append, List.mem_cons, List.not_mem_nil, or_false] at hr
  rcases hr with (rfl | rfl | rfl | rfl | rfl) | rfl | rfl
  · exact hfin.f1S
  · exact hfin.f2aS1
  · exact hfin.f2aS2
  · exact hfin.f2bS1
  · exact hfin.f2bS2
  · exact hfin.out
  · rfl

/-- Every command keeps the register invariant. -/
theorem registerInv_exec {i : Instr} {s t : State} (hs : RegisterInv s) (h : exec i s = .next t) : RegisterInv t := by
  cases i with
  | nop => cases h; exact hs
  | synStep => cases h; exact registerInv_synStep hs _
  | fltStep => cases h; exact registerInv_fltStep hs
  | synResetOps | synResetDcb | synReset | fltReset => exact registerInv_exec_reset (by decide) hs h

/-- Settles O55: the invariant survives each thing that one step can do. -/
theorem stepKeepsRegisterInv : Obligations.StepKeepsRegisterInv := by
  intro s t hs h
  obtain ⟨bus, answer, status, rfl⟩ | ⟨r, v, rest, hr, -, rfl⟩ | ⟨rest, -, rfl⟩ | ⟨i, rest, -, hexec⟩ := step_next_cases h
  · exact registerInv_beside hs bus answer status
  · exact registerInv_setReg (registerInv_beside hs rest none s.status) hr v
  · exact registerInv_hardwareReset _
  · exact registerInv_exec (registerInv_beside hs rest none s.status) hexec

/-- Settles O56, by induction on how the state was reached. -/
theorem reachableStatesKeepRegisterInv : Obligations.ReachableStatesKeepRegisterInv := by
  intro s hs
  induction hs with
  | reset => exact registerInv_reset
  | issue s es _ ih => exact registerInv_beside ih (s.bus ++ es) s.answer s.status
  | step s t _ hstep ih => exact stepKeepsRegisterInv s t ih hstep

end Sys2Proof.Machine

/-! SUPPORT. The host's bus accesses: bus errors, aligned reads, the writes that are ignored, STATUS's write-1-to-clear, and a
read behind a command. -/

namespace Sys2Proof.Machine

/-! ## The oldest access -/

theorem step_of_pending {s : State} {e : HostEvent} {rest : List HostEvent} (hbus : s.bus = e :: rest) :
    step s = perform e { s with bus := rest } := by
  simp [step, hbus]

theorem accessWellFormed_of_illegalAccess {w : Width} {a : Addr} (h : IllegalAccess w a) : accessWellFormed w a = false := by
  rcases h with hw | ha
  · simp [accessWellFormed, hw]
  · simp [accessWellFormed, aligned, ha]

theorem accessWellFormed_of_aligned {a : Addr} (ha : a.toNat % 4 = 0) : accessWellFormed .w32 a = true := by
  simp [accessWellFormed, aligned, ha]

@[simp] theorem busRead_bus_answer (s : State) (bus : List HostEvent) (answer : Option Word) (a : Addr) :
    busRead { s with bus := bus, answer := answer } a = busRead s a := by
  simp only [busRead, readReg_bus_answer]

/-- R63 as one step. -/
theorem step_alignedRead {s : State} {a : Addr} {rest : List HostEvent} (ha : a.toNat % 4 = 0)
    (hbus : s.bus = .read .w32 a :: rest) : step s = .next { s with bus := rest, answer := some (busRead s a) } := by
  have hread : busRead { s with bus := rest } a = busRead s a := busRead_bus_answer s rest s.answer a
  simp only [step_of_pending hbus, perform, accessWellFormed_of_aligned ha, if_true, hread]

/-- R64 as one step. -/
theorem step_alignedWrite {s : State} {a : Addr} {v : Word} {rest : List HostEvent} (ha : a.toNat % 4 = 0)
    (hbus : s.bus = .write .w32 a v :: rest) : step s = busWrite a v { s with bus := rest, answer := none } := by
  simp only [step_of_pending hbus, perform, accessWellFormed_of_aligned ha, if_true]

/-! ## STATUS -/

@[simp] theorem busRead_status (s : State) : busRead s 0x1FC#9 = statusWord s.status := busRead_regAddr s .status

/-- R34: STATUS reads ERR_CMD in bit 0, ERR_BUS in bit 1, and 0 above. -/
theorem getElem_statusWord (t : Status) {i : Nat} (hi : i < 32) :
    (statusWord t)[i] = (decide (i = 0) && t.errCmd || decide (i = 1) && t.errBus) := by
  obtain ⟨errCmd, errBus⟩ := t
  revert errCmd errBus i
  decide

theorem statusWord_errBus (t : Status) : statusWord { t with errBus := true } = statusWord t ||| 0x00000002#32 := by
  obtain ⟨errCmd, errBus⟩ := t
  revert errCmd errBus
  decide

theorem statusWord_writeOneToClear (t : Status) (v : Word) :
    statusWord (t.writeOneToClear v) = statusWord t &&& ~~~(v &&& 0x00000003#32) := by
  ext i hi
  simp only [getElem_statusWord, BitVec.getElem_and, BitVec.getElem_not, writeOneToClear_errCmd, writeOneToClear_errBus]
  match i with
  | 0 | 1 => simp [BitVec.getLsbD_eq_getElem]
  | n + 2 => simp

/-- R34, R64 as one step. -/
theorem step_statusWrite {s : State} {v : Word} {rest : List HostEvent} (hbus : s.bus = .write .w32 0x1FC#9 v :: rest) :
    step s = .next { s with bus := rest, answer := none, status := s.status.writeOneToClear v } := by
  rw [step_alignedWrite (by decide) hbus]
  exact busWrite_regAddr (r := .status) (by decide) v _

theorem raiseError_busError (s : State) :
    raiseError .busError s = { s with status := { s.status with errBus := true } } := rfl

/-- Settles O6: legality is decided before anything else, and `raiseError` sets ERR_BUS alone. -/
theorem busErrorSetsErrBusOnly : Obligations.BusErrorSetsErrBusOnly := by
  intro s rest w a hillegal
  have hwf := accessWellFormed_of_illegalAccess hillegal
  refine ⟨fun hbus => ?_, fun v hbus => ?_, ?_⟩
  · rw [step_of_pending hbus]
    simp [perform, hwf, raiseError_busError]
  · rw [step_of_pending hbus]
    simp [perform, hwf, raiseError_busError]
  · rw [busRead_status, busRead_status, statusWord_errBus]

/-- Settles O10: STATUS alone takes the write, and clears the bits written as 1. -/
theorem statusWriteOneToClear : Obligations.StatusWriteOneToClear := by
  intro s v rest hbus
  refine ⟨_, step_statusWrite hbus, ?_, bytesSameOutside_of_regs fun r hr => ?_, rfl, rfl, rfl⟩
  · rw [busRead_status, busRead_status, statusWord_writeOneToClear]
  · exact readReg_beside (by simpa using hr) s _ _ _

/-! ## Reserved and read-only addresses -/

theorem regAt_of_reserved {a : Addr} (h : ∀ r, a ≠ regAddr r) : regAt a = none := by
  cases hr : regAt a with
  | none => rfl
  | some r => exact absurd (regAddr_of_regAt hr).symm (h r)

/-- Settles O7: an aligned read changes only the answer, which is the register's value. -/
theorem alignedReadReturnsRegister : Obligations.AlignedReadReturnsRegister := by
  intro s a rest ha hbus
  refine ⟨step_alignedRead ha hbus, ?_, ?_, fun hreserved => ?_⟩
  · rintro r - rfl
    exact busRead_regAddr s r
  · rintro rfl
    exact busRead_regAddr s .cmd
  · simp [busRead, regAt_of_reserved hreserved]

/-- The registers that ignore a host write: outputs, FLT_LAST_MODE and the ROM (R64). -/
def ignoresWrites (r : Reg) : Prop := regKind r = .output ∨ regKind r = .readOnlyState ∨ regKind r = .rom

theorem hostWriteReg_of_ignoresWrites {r : Reg} (h : ignoresWrites r) (s : State) (v : Word) : hostWriteReg s r v = s := by
  rcases h with h | h | h <;> simp [hostWriteReg, h]

/-- R32, section 7: the aligned addresses of the ROM's range are those of its eleven words. -/
theorem algRom_of_range {a : Addr} (ha : a.toNat % 4 = 0) (hlo : 0x180 ≤ a.toNat) (hhi : a.toNat ≤ 0x1A8) :
    ∃ k, a = regAddr (.algRom k) := by
  refine ⟨⟨(a.toNat - 0x180) / 4, by omega⟩, BitVec.eq_of_toNat_eq ?_⟩
  simp only [regAddr, BitVec.toNat_ofNat]
  omega

/-- R38, R64: a write that reaches no register, or one that ignores writes, leaves the state. -/
theorem busWrite_ignored {a : Addr} (h : ∀ r, a = regAddr r → ignoresWrites r) (v : Word) (s : State) :
    busWrite a v s = .next s := by
  have hcmd : a ≠ regAddr .cmd := fun ha => by simpa [ignoresWrites, regKind] using h .cmd ha
  obtain ⟨i, ha, -⟩ | ⟨e, ha, -⟩ | ⟨r, -, ha, hw⟩ | ⟨-, hw⟩ := busWrite_cases a v s
  · exact absurd ha hcmd
  · exact absurd ha hcmd
  · rw [hw, hostWriteReg_of_ignoresWrites (h r ha)]
  · exact hw

theorem ignoresWrites_at_regAddr {q : Reg} (h : ignoresWrites q) (r : Reg) (hr : regAddr q = regAddr r) : ignoresWrites r :=
  regAddr_injective hr ▸ h

/-- Settles O9: each listed address is that of a register that ignores writes, or of none. -/
theorem readOnlyWritesIgnored : Obligations.ReadOnlyWritesIgnored := by
  intro s a v rest ha haddr hbus
  rw [step_alignedWrite ha hbus]
  apply busWrite_ignored
  rcases haddr with rfl | rfl | rfl | ⟨hlo, hhi⟩ | hreserved
  · exact ignoresWrites_at_regAddr (q := .synOut) (.inl rfl)
  · exact ignoresWrites_at_regAddr (q := .fltOut) (.inl rfl)
  · exact ignoresWrites_at_regAddr (q := .fltLastMode) (.inr (.inl rfl))
  · obtain ⟨k, rfl⟩ := algRom_of_range ha hlo hhi
    exact ignoresWrites_at_regAddr (.inr (.inr rfl))
  · exact fun r hr => absurd hr (hreserved r)

/-! ## A read behind a command -/

theorem decode_encode (i : Instr) : decode (encode i) = .legal i := by
  cases i <;> decide

/-- R66, R83 as one step: a pending CMD write of a command's word runs the command. -/
theorem step_command {s : State} {w : Word} {i : Instr} {rest : List HostEvent} (hd : decode w = .legal i)
    (hbus : s.bus = .write .w32 0x1F8#9 w :: rest) : step s = exec i { s with bus := rest, answer := none } := by
  rw [step_alignedWrite (by decide) hbus]
  simp only [busWrite, show regAt 0x1F8#9 = some .cmd from regAt_regAddr .cmd, executeCommand, hd]

/-- R69: a command takes no pending access. -/
theorem bus_of_exec {i : Instr} {s t : State} (h : exec i s = .next t) : t.bus = s.bus := by
  cases i <;> cases h <;> rfl

/-- Settles O11: the command keeps the pending read, and the next step takes it on the state the command left. -/
theorem readBehindCommandSeesItsResult : Obligations.ReadBehindCommandSeesItsResult := by
  intro s t a i rest ha hbus hexec
  have hfirst : step s = .next t := (step_command (decode_encode i) hbus).trans hexec
  have hsecond : step t = .next { t with bus := rest, answer := some (busRead t a) } :=
    step_alignedRead ha (bus_of_exec hexec)
  simp only [Host.Core.run, core, hfirst, hsecond]

end Sys2Proof.Machine

/-! SUPPORT. The encoding of commands: a word is its four bytes, a command word is its two fields, and a CMD write is a
command's word or sets ERR_CMD. -/

namespace Sys2Proof.Machine

/-! ## Words and bytes (R68) -/

theorem wordOfBytes_toNat (b0 b1 b2 b3 : Byte) :
    (wordOfBytes b0 b1 b2 b3).toNat = b0.toNat + b1.toNat * 2 ^ 8 + b2.toNat * 2 ^ 16 + b3.toNat * 2 ^ 24 := by
  rw [wordOfBytes, BitVec.toNat_ofNat]
  omega

theorem byteOf_toNat (w : Word) (k : Nat) : (byteOf w k).toNat = w.toNat / 2 ^ (8 * k) % 2 ^ 8 := BitVec.toNat_ofNat _ _

theorem bytesOfWord_wordOfBytes (b0 b1 b2 b3 : Byte) : bytesOfWord (wordOfBytes b0 b1 b2 b3) = [b0, b1, b2, b3] := by
  simp only [bytesOfWord, List.cons.injEq, and_true, ← BitVec.toNat_inj, byteOf_toNat, wordOfBytes_toNat]
  omega

theorem wordOfBytes_byteOf (w : Word) : wordOfBytes (byteOf w 0) (byteOf w 1) (byteOf w 2) (byteOf w 3) = w := by
  simp only [← BitVec.toNat_inj, wordOfBytes_toNat, byteOf_toNat]
  omega

/-- Decoding a word's bytes is decoding the word, and takes no byte behind it. -/
theorem decodeBytes_bytesOfWord (w : Word) (rest : List Byte) : decodeBytes (bytesOfWord w ++ rest) = (decode w, rest) :=
  congrArg (fun v => (decode v, rest)) (wordOfBytes_byteOf w)

/-- Settles O3: a word and its four bytes are inverse views, and the words that decode are the encodings. -/
theorem decodeEncodeAgree : Obligations.DecodeEncodeAgree := by
  refine ⟨fun i rest => ?_, fun w i h => (encode_of_decode h).symm, fun b0 b1 b2 b3 rest i h => ?_⟩
  · rw [encodeBytes, decodeBytes_bytesOfWord, decode_encode]
  · have hdecode : decode (wordOfBytes b0 b1 b2 b3) = .legal i := congrArg Prod.fst h
    rw [encodeBytes, ← encode_of_decode hdecode, bytesOfWord_wordOfBytes]

/-! ## The two fields of a command word (R80, R81) -/

theorem decode_eq_legal_iff (w : Word) (i : Instr) : decode w = .legal i ↔ w = encode i :=
  ⟨encode_of_decode, fun h => h ▸ decode_encode i⟩

/-- A word is its OP field with its RSV field above. -/
theorem eq_iff_fields (w v : Word) :
    w = v ↔ w.extractLsb' 8 24 = v.extractLsb' 8 24 ∧ w.extractLsb' 0 8 = v.extractLsb' 0 8 := by
  simp only [← BitVec.toNat_inj, extractLsb'_toNat_eq_div_mod]
  omega

theorem rsv_encode (i : Instr) : (encode i).extractLsb' 8 24 = 0#24 := by
  cases i <;> decide

/-- R81's table pairs each command with the OP field of its encoding. -/
theorem mem_opTable_iff (i : Instr) (op : BitVec 8) :
    (i, op) ∈ [(Instr.nop, 0x00#8), (Instr.synStep, 0x01#8), (Instr.synResetOps, 0x02#8), (Instr.synResetDcb, 0x03#8),
      (Instr.synReset, 0x04#8), (Instr.fltStep, 0x10#8), (Instr.fltReset, 0x11#8)] ↔
      op = (encode i).extractLsb' 0 8 := by
  cases i <;> simp [encode, opcode]

/-- Settles O2: a word decodes to a command when it is the command's encoding, that is when their fields are equal. -/
theorem commandWordLegalExactly : Obligations.CommandWordLegalExactly := by
  intro w i
  rw [decode_eq_legal_iff, eq_iff_fields, rsv_encode, mem_opTable_iff]

theorem rsv_of_decode {w : Word} {i : Instr} (h : decode w = .legal i) : w.extractLsb' 8 24 = 0#24 :=
  ((commandWordLegalExactly w i).mp h).1

theorem op_of_decode {w : Word} {i : Instr} (h : decode w = .legal i) :
    w.extractLsb' 0 8 ∈ [0x00#8, 0x01#8, 0x02#8, 0x03#8, 0x04#8, 0x10#8, 0x11#8] :=
  List.mem_map_of_mem (f := Prod.snd) ((commandWordLegalExactly w i).mp h).2

/-- Settles O1: the command words are encodings; the others have a bit of RSV set or an OP of no command. -/
theorem specCommandWordsDecode : Obligations.SpecCommandWordsDecode :=
  ⟨decode_encode .nop, decode_encode .synStep, decode_encode .synReset, decode_encode .fltStep, decode_encode .fltReset,
    by decide, by decide, by decide, by decide⟩

/-! ## The CMD write (R82, R83) -/

/-- Settles O4: an aligned write reaches CMD, whose word is decoded and run. -/
theorem stepRunsTheDecodedCommand : Obligations.StepRunsTheDecodedCommand :=
  fun _ _ _ _ hbus hd => step_command hd hbus

/-- Settles O18: 0 encodes NOP, which answers its state, and a command's word has RSV = 0. -/
theorem nopChangesNothing : Obligations.NopChangesNothing :=
  ⟨decode_encode .nop, fun _ => rfl, fun _ _ hrsv _ hd => hrsv (rsv_of_decode hd)⟩

theorem raiseError_illegalCommand (s : State) :
    raiseError .illegalCommand s = { s with status := { s.status with errCmd := true } } := rfl

theorem statusWord_errCmd (t : Status) : statusWord { t with errCmd := true } = statusWord t ||| 0x00000001#32 := by
  obtain ⟨errCmd, errBus⟩ := t
  revert errCmd errBus
  decide

/-- R82, R301 as one step: a pending CMD write of any other word raises IllegalCommand. -/
theorem step_illegalCommand {s : State} {w : Word} {e : DecodeError} {rest : List HostEvent}
    (hd : decode w = .illegal e) (hbus : CmdWritePending s w rest) :
    step s = .next (raiseError .illegalCommand { s with bus := rest, answer := none }) := by
  rw [step_alignedWrite (by decide) hbus]
  simp only [busWrite, show regAt 0x1F8#9 = some .cmd from regAt_regAddr .cmd, executeCommand, hd]

/-- Settles O5: such a word decodes to no command, and `raiseError` sets ERR_CMD alone. -/
theorem illegalWordSetsErrCmdOnly : Obligations.IllegalWordSetsErrCmdOnly := by
  intro s w rest hbus hillegal
  constructor
  · cases hd : decode w with
    | legal i => exact absurd hillegal (not_or.mpr ⟨not_not.mpr (rsv_of_decode hd), not_not.mpr (op_of_decode hd)⟩)
    | illegal e => rw [step_illegalCommand hd hbus, raiseError_illegalCommand]
  · rw [busRead_status, busRead_status, statusWord_errCmd]

end Sys2Proof.Machine

/-! SUPPORT. Negation through the operations, and magnitudes by powers of two: what each operation does to the bound 2^k on a
number. A number within a bound is finite, so a bound that stays below 2^128 carries finiteness through a computation
(R101). -/

namespace Sys2Proof

/-! ## Comparing with a bound -/

/-- A magnitude is compared with a positive bound as a number is. -/
theorem fLe_fAbs_of_mag_le {x b : F32} (hb : isFinite b = true) (sb : signBit b = false) (h : mag x ≤ mag b) :
    fLe (fAbs x) b = true := by
  have hx := isNaN_of_isFinite (isFinite_of_mag_le hb h)
  simp [fLe, hx, isNaN_of_isFinite hb, sval_of_not_signBit sb, sval_of_not_signBit (signBit_fAbs x), h]

/-! ## Negation -/

theorem fNeg_roundF (neg : Bool) (num den : Nat) : fNeg (roundF neg num den) = roundF (!neg) num den := by
  have hlow : (roundF neg num den).toNat % 2 ^ 31 = roundMag num den := by
    have := roundMag_lt num den
    rw [roundF, packF_toNat _ _ this]
    split <;> omega
  rw [fNeg, signBit_roundF, hlow, roundF]

theorem fMul_fNeg_left {x y : F32} (hx : isFinite x = true) (hy : isFinite y = true) : fMul (fNeg x) y = fNeg (fMul x y) := by
  rw [fMul_of_finite (by simpa using hx) hy, fMul_of_finite hx hy, fNeg_roundF, mag_fNeg, signBit_fNeg]
  congr 1
  cases signBit x <;> cases signBit y <;> rfl

theorem fMul_fNeg_fNeg {x : F32} (hx : isFinite x = true) : fMul (fNeg x) (fNeg x) = fMul x x := by
  rw [fMul_of_finite (by simpa using hx) (by simpa using hx), fMul_of_finite hx hx, mag_fNeg, bne_self_eq_false,
    bne_self_eq_false]

theorem fDiv_of_finite {x y : F32} (hx : isFinite x = true) (hy : isFinite y = true) (h0 : 0 < mag y) :
    fDiv x y = roundF (signBit x != signBit y) (mag x * 2 ^ 149) (mag y) := by
  simp [fDiv, isNaN_of_isFinite hx, isNaN_of_isFinite hy, isInf_of_isFinite hx, isInf_of_isFinite hy, h0.ne']

theorem fDiv_fNeg_left {x y : F32} (hx : isFinite x = true) (hy : isFinite y = true) (h0 : 0 < mag y) :
    fDiv (fNeg x) y = fNeg (fDiv x y) := by
  rw [fDiv_of_finite (by simpa using hx) hy h0, fDiv_of_finite hx hy h0, fNeg_roundF, mag_fNeg, signBit_fNeg]
  congr 1
  cases signBit x <;> cases signBit y <;> rfl

/-- Negating both sides turns a comparison round. -/
theorem fLe_fNeg_fNeg (x y : F32) : fLe (fNeg x) (fNeg y) = fLe y x := by
  simp [fLe, sval_fNeg, Bool.and_comm]

theorem fLe_fNeg_right (x y : F32) : fLe x (fNeg y) = fLe y (fNeg x) := by
  rw [← fLe_fNeg_fNeg (fNeg y), fNeg_fNeg]

/-! ## Bounds by powers of two -/

/-- x is a number of magnitude at most 2^k. -/
@[reducible] def Within (k : Nat) (x : F32) : Prop := mag x ≤ 2 ^ (149 + k)

/-- The binary32 number 2^k, for k up to 127. -/
def pow2F (k : Nat) : F32 := packF false ((126 + k + 1) * 2 ^ 23 + 0)

theorem mag_pow2F {k : Nat} (hk : k ≤ 127) : mag (pow2F k) = 2 ^ (149 + k) := by
  rw [pow2F, mag_packF _ (by omega), bitsMag_of_split (by decide), Nat.add_zero, ← Nat.pow_add]
  congr 1
  omega

theorem isFinite_pow2F {k : Nat} (hk : k ≤ 127) : isFinite (pow2F k) = true := by
  rw [pow2F, isFinite, expField_packF _ _ (by omega), bne_iff_ne]
  omega

theorem Within.isFinite {k : Nat} {x : F32} (h : Within k x) (hk : k ≤ 127 := by decide) : isFinite x = true :=
  isFinite_of_mag_le (isFinite_pow2F hk) (by rwa [mag_pow2F hk])

theorem Within.mono {j k : Nat} {x : F32} (h : Within j x) (hjk : j ≤ k := by decide) : Within k x :=
  h.trans (Nat.pow_le_pow_right (by decide) (by omega))

theorem within_fNeg {k : Nat} {x : F32} (h : Within k x) : Within k (fNeg x) := by rwa [Within, mag_fNeg]

theorem within_fAbs {k : Nat} {x : F32} (h : Within k x) : Within k (fAbs x) := by rwa [Within, mag_fAbs]

/-- Rounding keeps a bound. -/
theorem within_roundF {k num den : Nat} (hd : 0 < den) (hk : k ≤ 127) (h : num ≤ 2 ^ (149 + k) * den) (neg : Bool) :
    Within k (roundF neg num den) := by
  have hle : num ≤ mag (pow2F k) * den := by rwa [mag_pow2F hk]
  have := mag_roundF_le hd (isFinite_pow2F hk) hle neg
  rwa [mag_pow2F hk] at this

/-- A sum doubles a bound on its operands. -/
theorem within_fAdd {j k n : Nat} {x y : F32} (hx : Within j x) (hy : Within k y) (hj : j ≤ n := by decide)
    (hk : k ≤ n := by decide) (hn : n + 1 ≤ 127 := by decide) : Within (n + 1) (fAdd x y) := by
  have hsum : mag x + mag y ≤ mag (pow2F (n + 1)) := by
    rw [mag_pow2F hn, show 149 + (n + 1) = 149 + n + 1 by omega, Nat.pow_succ]
    have := hx.mono hj
    have := hy.mono hk
    omega
  have := mag_fAdd_le (hx.isFinite (by omega)) (hy.isFinite (by omega)) (isFinite_pow2F hn) hsum
  rwa [mag_pow2F hn] at this

theorem within_fSub {j k n : Nat} {x y : F32} (hx : Within j x) (hy : Within k y) (hj : j ≤ n := by decide)
    (hk : k ≤ n := by decide) (hn : n + 1 ≤ 127 := by decide) : Within (n + 1) (fSub x y) :=
  within_fAdd hx (within_fNeg hy) hj hk hn

/-- A product multiplies the bounds. -/
theorem within_fMul {j k n : Nat} {x y : F32} (hx : Within j x) (hy : Within k y) (hjk : j + k ≤ n := by decide)
    (hn : n ≤ 127 := by decide) : Within n (fMul x y) := by
  rw [fMul_of_finite (hx.isFinite (by omega)) (hy.isFinite (by omega))]
  refine within_roundF (Nat.two_pow_pos _) hn ?_ _
  calc mag x * mag y ≤ 2 ^ (149 + j) * 2 ^ (149 + k) := Nat.mul_le_mul hx hy
    _ = 2 ^ (149 + (j + k)) * 2 ^ 149 := by rw [← Nat.pow_add, ← Nat.pow_add]; congr 1; omega
    _ ≤ 2 ^ (149 + n) * 2 ^ 149 := Nat.mul_le_mul_right _ (Nat.pow_le_pow_right (by decide) (by omega))

/-- A quotient of magnitudes bounds a quotient. -/
theorem within_fDiv {k : Nat} {x y : F32} (hx : isFinite x = true) (hy : isFinite y = true) (h0 : 0 < mag y)
    (h : mag x ≤ 2 ^ k * mag y) (hk : k ≤ 127 := by decide) : Within k (fDiv x y) := by
  rw [fDiv_of_finite hx hy h0]
  refine within_roundF h0 hk ?_ _
  calc mag x * 2 ^ 149 ≤ 2 ^ k * mag y * 2 ^ 149 := Nat.mul_le_mul_right _ h
    _ = 2 ^ (149 + k) * mag y := by rw [Nat.pow_add]; ring

/-- The floor keeps a bound, which is a whole number. -/
theorem within_fFloor {k : Nat} {x : F32} (h : Within k x) (hk : k ≤ 127 := by decide) : Within k (fFloor x) := by
  have hwhole : ∀ m : Nat, m ≤ mag x + (2 ^ 149 - 1) → m / 2 ^ 149 * 2 ^ 149 ≤ 2 ^ (149 + k) * 1 := by
    intro m hm
    have hx : mag x ≤ 2 ^ k * 2 ^ 149 := by rw [← Nat.pow_add, Nat.add_comm]; exact h
    have : m / 2 ^ 149 ≤ 2 ^ k := by omega
    rw [Nat.mul_one, Nat.add_comm, Nat.pow_add]
    exact Nat.mul_le_mul_right _ this
  rw [fFloor_of_finite (h.isFinite hk)]
  split
  · exact within_roundF (by decide) hk (hwhole _ le_rfl) _
  · exact within_roundF (by decide) hk (hwhole _ (by omega)) _

/-- A sum is no larger than a finite number its exact value does not exceed. -/
theorem mag_fAdd_le_of_sum {x y b : F32} (hx : isFinite x = true) (hy : isFinite y = true) (hb : isFinite b = true)
    (h : (sval x + sval y).natAbs ≤ mag b) : mag (fAdd x y) ≤ mag b := by
  rw [fAdd_of_finite hx hy]
  split
  · split <;> exact Nat.zero_le _
  · exact mag_roundF_le (by decide) hb (by omega) _

/-- A sum is no smaller than a finite number, not below zero, that its exact value reaches. -/
theorem le_sval_fAdd {x y b : F32} (hx : isFinite x = true) (hy : isFinite y = true) (hb : isFinite b = true)
    (sb : signBit b = false) (h : sval b ≤ sval x + sval y) : sval b ≤ sval (fAdd x y) := by
  rw [sval_of_not_signBit sb] at h ⊢
  rw [fAdd_of_finite hx hy]
  split
  case isTrue h0 =>
    have hz : sval negZeroF = 0 ∧ sval zeroF = 0 := by decide
    split <;> simp only [hz] <;> omega
  case isFalse =>
    have hpos : decide (sval x + sval y < 0) = false := decide_eq_false (by omega)
    rw [hpos, sval_of_not_signBit (signBit_roundF _ _ _)]
    exact Int.ofNat_le.mpr (le_mag_roundF (by decide) hb (by omega) _)

end Sys2Proof

/-! SUPPORT. The numeric utilities (spec/40_numeric_utilities.md): the wrap, the clamp of a parameter's write, the odd
functions of R104, the odd saturator and the flush. -/

namespace Sys2Proof

namespace Machine

/-! ## The wrap -/

/-- Settles O44: what R107 says of a phase. -/
theorem wrapStaysInUnitInterval : Obligations.WrapStaysInUnitInterval := by
  intro x
  have h := legalPhase_wrap01 x
  simp only [legalPhase, Bool.and_eq_true, Bool.not_eq_true'] at h
  obtain ⟨⟨hlow, hhigh⟩, hsign⟩ := h
  exact ⟨hlow, hhigh, hsign⟩

/-! ## The clamp -/

/-- A number in a range has a magnitude no larger than one that bounds the range on both sides. -/
theorem mag_le_of_inRange {b : Range} {n : Nat} (hlo : -(n : Int) ≤ sval b.lo) (hhi : sval b.hi ≤ n) {x : F32}
    (h : inRange b x = true) : mag x ≤ n := by
  simp only [inRange, fLe, Bool.and_eq_true, decide_eq_true_eq] at h
  rw [← natAbs_sval x]
  omega

theorem clampN_of_isNaN {x : F32} (h : isNaN x = true) (lo hi n : F32) : clampN x lo hi n = n := by
  simp [clampN, h]

theorem clampN_of_fLt {x lo : F32} (h : fLt x lo = true) (hi n : F32) : clampN x lo hi n = lo := by
  have hx : isNaN x = false := by
    simp only [fLt, Bool.and_eq_true, Bool.not_eq_true'] at h
    obtain ⟨⟨hx, -⟩, -⟩ := h
    exact hx
  simp [clampN, hx, h]

/-- In a range that is not empty, a number above it is not below it. -/
theorem clampN_of_valid_of_fLt {b : Range} (hb : b.valid = true) {x : F32} (h : fLt b.hi x = true) :
    clampN x b.lo b.hi b.nan = b.hi := by
  simp only [Range.valid, inRange, fLe, Bool.and_eq_true, decide_eq_true_eq] at hb
  have hx : isNaN x = false ∧ sval b.hi < sval x := by
    simp only [fLt, Bool.and_eq_true, Bool.not_eq_true', decide_eq_true_eq] at h
    obtain ⟨⟨-, hx⟩, hlt⟩ := h
    exact ⟨hx, hlt⟩
  have hlo : fLt x b.lo = false := by
    simp only [fLt, Bool.and_eq_false_iff, decide_eq_false_iff_not]
    omega
  simp [clampN, hx, hlo, h]

/-- The tables of R23, R24 and R29 are the parameter registers with their ranges, in address order. -/
theorem paramTable_eq :
    paramTable = allRegs.filterMap (fun r => (paramRange r).map fun b => (regAddr r, b.lo, b.hi, b.nan)) := rfl

theorem reg_of_mem_paramTable {a : Addr} {lo hi n : F32} (h : (a, lo, hi, n) ∈ paramTable) :
    ∃ r, a = regAddr r ∧ paramRange r = some ⟨lo, hi, n⟩ := by
  rw [paramTable_eq] at h
  obtain ⟨r, -, hr⟩ := List.mem_filterMap.mp h
  obtain ⟨b, hb, hrow⟩ := Option.map_eq_some_iff.mp hr
  cases hrow
  exact ⟨r, rfl, hb⟩

theorem hostWritable_of_paramRange {r : Reg} {b : Range} (h : paramRange r = some b) : hostWritable r := by
  cases r <;> cases h <;> exact .inl rfl

/-- Settles O14: the write stores the clamped word, and the clamp's four cases are those of R102. -/
theorem floatParametersClampOnWrite : Obligations.FloatParametersClampOnWrite := by
  intro s a lo hi n v rest ha hbus
  obtain ⟨r, rfl, hr⟩ := reg_of_mem_paramTable ha
  obtain ⟨t, hstep, hread⟩ := step_hostWrite_read (hostWritable_of_paramRange hr) hbus
  rw [sanitize_of_paramRange hr] at hread
  refine ⟨t, hstep, fun hv => ?_, fun hv => ?_, fun hv => ?_, fun hlo hhi => ?_⟩ <;> rw [hread]
  · exact clampN_of_isNaN hv _ _ _
  · exact clampN_of_fLt hv _ _
  · exact clampN_of_valid_of_fLt (valid_of_paramRange hr) hv
  · exact clampN_of_inRange (b := ⟨lo, hi, n⟩) (by simp [inRange, hlo, hhi]) _

/-! ## The odd functions of R104 -/

/-- The range of an odd function with bound b. -/
def symmetricRange (b : F32) : Range := ⟨fNeg b, b, zeroF⟩

theorem mag_le_of_symmetricRange {b x : F32} (h : inRange (symmetricRange b) x = true) : mag x ≤ mag b := by
  have hb := natAbs_sval b
  refine mag_le_of_inRange ?_ ?_ h
  · simp only [symmetricRange, sval_fNeg]; omega
  · simp only [symmetricRange]; omega

section
variable {f : F32 → F32} {inDomain : F32 → Bool} {b x : F32}

/-- Bounded: the result is clamped, then perhaps negated. -/
theorem mag_oddBounded_le (hb : (symmetricRange b).valid = true) (hx : inDomain x = true) :
    mag (oddBounded f inDomain b x) ≤ mag b := by
  have hclamp : mag (clampN (f (fAbs x)) (fNeg b) b zeroF) ≤ mag b := mag_le_of_symmetricRange (inRange_clampN hb _)
  have hzero : mag zeroF ≤ mag b := Nat.zero_le _
  simp only [oddBounded, hx, if_true]
  split <;> split <;> simpa only [mag_fNeg]

/-- Odd: f is applied to the magnitude, and the sign decides whether its result is negated. -/
theorem oddBounded_fNeg (hx : inDomain x = true) (hneg : inDomain (fNeg x) = true) :
    oddBounded f inDomain b (fNeg x) = fNeg (oddBounded f inDomain b x) := by
  have habs : fAbs (fNeg x) = fAbs x := by rw [fAbs, fNeg_toNat_low, fAbs]
  simp only [oddBounded, hx, hneg, habs, mag_fNeg, signBit_fNeg, if_true]
  cases signBit x <;> simp [fNeg_fNeg]

variable (f b) in
theorem oddBounded_zeroF (h0 : inDomain zeroF = true) : oddBounded f inDomain b zeroF = zeroF := by
  have hz : mag zeroF = 0 ∧ signBit zeroF = false := by decide
  simp [oddBounded, h0, hz]

end

theorem mag_fsin_le {x : F32} (hx : isFinite x = true) : mag (machineConfig.fsin x) ≤ mag oneF :=
  mag_oddBounded_le (by decide) hx

/-- Settles O42: both functions are shaped to be odd and bounded on their domain. -/
theorem trigFunctionsMeetRequirements : Obligations.TrigFunctionsMeetRequirements := by
  have hneg : ∀ x, fLe (fAbs x) oneF = true → fLe (fAbs (fNeg x)) oneF = true := by
    intro x hx
    rwa [fAbs, fNeg_toNat_low]
  refine ⟨fun x hx => ?_, ?_, fun x hx => ?_, fun x hx => ?_, ?_, fun x hx => ?_⟩
  · exact fLe_fAbs_of_mag_le (b := oneF) (by decide) (by decide) (mag_fsin_le hx)
  · exact oddBounded_zeroF Config.fsinRaw oneF (inDomain := isFinite) (by decide)
  · exact oddBounded_fNeg hx (by simpa using hx)
  · exact fLe_fAbs_of_mag_le (b := halfPiF) (by decide) (by decide) (mag_oddBounded_le (by decide) hx)
  · exact oddBounded_zeroF Config.fasinRaw halfPiF (inDomain := fun x => fLe (fAbs x) oneF) (by decide)
  · exact oddBounded_fNeg (inDomain := fun x => fLe (fAbs x) oneF) hx (hneg x hx)

/-! ## The saturator -/

/-- R108's fraction is odd within ±3.0: the square has no sign, and the numerator has that of x. -/
theorem softClipFraction_fNeg {x : F32} (h : mag x ≤ mag threeF) : softClipFraction (fNeg x) = fNeg (softClipFraction x) := by
  have hx : Within 2 x := h.trans (by decide)
  have hsum : Within 6 (fAdd twentySevenF (fMul x x)) :=
    within_fAdd (n := 5) (by decide : Within 5 twentySevenF) (within_fMul (n := 4) hx hx)
  have hnum : Within 8 (fMul x (fAdd twentySevenF (fMul x x))) := within_fMul hx hsum
  obtain ⟨hlow, hhigh⟩ := mag_softClip_denominator h
  have h27 : 0 < mag twentySevenF := by decide
  rw [softClipFraction, fMul_fNeg_fNeg hx.isFinite, fMul_fNeg_left hx.isFinite hsum.isFinite]
  exact fDiv_fNeg_left hnum.isFinite (isFinite_of_mag_le (by decide) hhigh) (by omega)

/-- Beyond 3.0 the saturator gives 1.0. -/
theorem softClip_of_le {x : F32} (h : fLe threeF x = true) : softClip x = oneF := by simp [softClip, h]

/-- Beyond -3.0 it gives -1.0. -/
theorem softClip_of_ge {x : F32} (h : fLe x (fNeg threeF) = true) : softClip x = fNeg oneF := by
  have h3 : fLe threeF x = false := by
    have hv : sval threeF = mag threeF ∧ sval (fNeg threeF) = -mag threeF ∧ 0 < mag threeF := by decide
    simp only [fLe, hv, Bool.and_eq_true, Bool.and_eq_false_iff, decide_eq_true_eq, decide_eq_false_iff_not] at h ⊢
    omega
  simp [softClip, h, h3]

/-- Between the two ends a number is within ±3.0 and the saturator gives R108's fraction. -/
theorem softClip_of_between {x : F32} (hx : isNaN x = false) (h3 : fLe threeF x = false) (hm3 : fLe x (fNeg threeF) = false) :
    mag x ≤ mag threeF ∧ softClip x = softClipFraction x := by
  refine ⟨?_, by simp [softClip, softClipFraction, h3, hm3]⟩
  have hv : isNaN threeF = false ∧ sval threeF = mag threeF ∧ sval (fNeg threeF) = -mag threeF := by decide
  simp only [fLe, isNaN_fNeg, hx, hv, Bool.not_false, Bool.true_and, decide_eq_false_iff_not] at h3 hm3
  rw [← natAbs_sval x]
  omega

/-- Settles O45: the two ends change places, and between them the fraction is odd. -/
theorem softClipIsOdd : Obligations.SoftClipIsOdd := by
  intro x hx
  cases h3 : fLe threeF x with
  | true => rw [softClip_of_le h3, softClip_of_ge (by rwa [fLe_fNeg_fNeg])]
  | false =>
    cases hm3 : fLe x (fNeg threeF) with
    | true => rw [softClip_of_ge hm3, fNeg_fNeg, softClip_of_le (by rwa [fLe_fNeg_right])]
    | false =>
      obtain ⟨hmag, hfrac⟩ := softClip_of_between hx h3 hm3
      obtain ⟨-, hfracNeg⟩ := softClip_of_between (x := fNeg x) (by simpa using hx) (by rwa [fLe_fNeg_right])
        (by rwa [fLe_fNeg_fNeg])
      rw [hfrac, hfracNeg, softClipFraction_fNeg hmag]

/-! ## The denormal flush -/

/-- A flushed value is stored as no subnormal: a NaN is none. -/
theorem isSubnormal_sealNaN_flushDenormal (k : Nat) (r : Reg) (x : F32) :
    isSubnormal (sealNaN k r (flushDenormal x)) = false := by
  unfold sealNaN
  split
  · have h := isNaN_freeNaN k r
    simp only [isNaN, Bool.and_eq_true, beq_iff_eq] at h
    simp [isSubnormal, h.1]
  · exact isSubnormal_flushDenormal x

/-- Settles O39: each register of R112 is stored flushed. -/
theorem stepsLeaveNoSubnormalState : Obligations.StepsLeaveNoSubnormalState := by
  refine ⟨fun s => ⟨_, rfl, ?_, ?_⟩, fun s => ⟨_, rfl, ?_⟩⟩
  · exact isSubnormal_sealNaN_flushDenormal _ _ _
  · exact isSubnormal_sealNaN_flushDenormal _ _ _
  · simp only [readReg, fltStep, fltCompute]
    cases (machineConfig.modeTable s.flt.mode).1 <;>
      simp [runOne, runTwo, runCas, isSubnormal_sealNaN_flushDenormal]

end Machine
end Sys2Proof

/-! SUPPORT. The synth engine's values are bounded by its parameters, so that what a SYN_STEP stores of its outputs and of the
DC blocker's input is finite (R101, R200). -/

namespace Sys2Proof

namespace Machine

theorem within_of_legalPhase {p : F32} (h : legalPhase p = true) : Within 0 p := ((legalPhase_iff p).mp h).2.2.le

theorem within_of_inRange {b : Range} {k : Nat} (hlo : sval b.lo = 0) (hhi : sval b.hi ≤ 2 ^ (149 + k)) {x : F32}
    (h : inRange b x = true) : Within k x :=
  mag_le_of_inRange (by rw [hlo]; exact neg_nonpos.mpr (Int.natCast_nonneg _)) (by exact_mod_cast hhi) h

theorem within_softClip {x : F32} (h : isFinite x = true) : Within 2 (softClip x) :=
  (mag_softClip_le (isNaN_of_isFinite h)).trans (by decide)

/-! ## Waveforms -/

/-- R135: PolyBLEP never divides by zero, and its quotient lies in [-1, 1]: in the first zone t < dt, and in the second
1 - dt < t, which holds of the exact difference too, so that |t - 1| < dt. -/
theorem within_polyblep {t dt : F32} (ht : legalPhase t = true) (hdt : isFinite dt = true) : Within 3 (polyblep t dt) := by
  obtain ⟨ft, st, lt⟩ := (legalPhase_iff t).mp ht
  have f1 : isFinite oneF = true := by decide
  have s1 : sval oneF = 2 ^ 149 := by decide
  have w1 : Within 0 oneF := by decide
  have hdabs := natAbs_sval dt
  have htv := sval_of_not_signBit st
  unfold polyblep
  split
  case isTrue h =>
    simp only [fLt, Bool.and_eq_true, decide_eq_true_eq] at h
    have hx : Within 0 (fDiv t dt) := within_fDiv ft hdt (by omega) (by omega)
    exact within_fSub (within_fSub (n := 1) (within_fAdd (n := 0) hx hx) (within_fMul (n := 0) hx hx)) w1
  case isFalse =>
    split
    case isFalse => decide
    case isTrue h =>
      have hlt : sval oneF - sval dt < sval t := by
        simp only [fLt, Bool.and_eq_true, decide_eq_true_eq] at h
        by_contra hge
        have := le_sval_fAdd (x := oneF) (y := fNeg dt) f1 (by simpa using hdt) ft st (by rw [sval_fNeg]; omega)
        exact absurd h.2 (by rw [fSub]; omega)
      have hnum : mag (fSub t oneF) ≤ mag dt :=
        mag_fAdd_le_of_sum ft (by decide) hdt (by rw [sval_fNeg]; omega)
      have hx : Within 0 (fDiv (fSub t oneF) dt) :=
        within_fDiv (isFinite_of_mag_le hdt hnum) hdt (by omega) (by omega)
      exact within_fAdd (within_fAdd (n := 1) (within_fAdd (n := 0) (within_fMul (n := 0) hx hx) hx) hx) w1

theorem within_triWave {p : F32} (hp : Within 0 p) : Within 3 (triWave p) := by
  have h4 : Within 2 (fMul fourF p) := within_fMul (by decide : Within 2 fourF) hp
  unfold triWave
  split_ifs
  · exact h4.mono
  · exact within_fSub (by decide : Within 1 twoF) h4
  · exact within_fSub h4 (by decide : Within 2 fourF)

theorem within_sawBlep {p dt : F32} (hp : legalPhase p = true) (hdt : isFinite dt = true) : Within 4 (sawBlep p dt) := by
  have h2 : Within 1 (fMul twoF p) := within_fMul (by decide : Within 1 twoF) (within_of_legalPhase hp)
  have hsaw : Within 2 (sawWave p) := within_fSub h2 (by decide : Within 0 oneF)
  exact within_fSub hsaw (within_polyblep hp hdt)

theorem within_pulseBlep {p dt : F32} (hp : legalPhase p = true) (hdt : isFinite dt = true) : Within 5 (pulseBlep p dt) := by
  have hpulse : Within 0 (pulseWave p) := by unfold pulseWave; split <;> decide
  exact within_fSub (within_fAdd (n := 3) hpulse (within_polyblep hp hdt)) (within_polyblep (legalPhase_wrap01 _) hdt)

theorem within_xfade {a u v : F32} (ha : Within 3 a) (hu : Within 5 u) (hv : Within 5 v) : Within 10 (xfade a u v) := by
  have hrest : Within 4 (fSub oneF a) := within_fSub (by decide : Within 0 oneF) ha
  exact within_fAdd (within_fMul (n := 9) hrest hu) (within_fMul (n := 9) ha hv)

/-- R104: the sine of a finite number has magnitude at most 1. -/
def SineWithin (c : Config) : Prop := ∀ x, isFinite x = true → Within 0 (c.fsin x)

theorem sineWithin_machineConfig : SineWithin machineConfig := fun _ hx => mag_fsin_le hx

/-- The morph of a phase is bounded, for a sine that is. -/
theorem within_waveWarp {c : Config} (hsin : SineWithin c) {p w dt : F32}
    (hp : legalPhase p = true) (hw : Within 0 w) (hdt : isFinite dt = true) : Within 10 (waveWarp c p w dt) := by
  have h3 : Within 2 threeF := by decide
  have hsine : Within 0 (sineWave c p) :=
    hsin _ (within_fMul (n := 3) (by decide : Within 3 twoPiF) (within_of_legalPhase hp)).isFinite
  have htri := (within_triWave (within_of_legalPhase hp)).mono (k := 5)
  have hsaw := (within_sawBlep hp hdt).mono (k := 5)
  unfold waveWarp
  split_ifs
  · exact within_xfade (within_fMul hw h3) hsine.mono htri
  · exact within_xfade (within_fMul (within_fSub (n := 0) hw (by decide : Within 0 thirdF)) h3) htri hsaw
  · exact within_xfade (within_fMul (within_fSub (n := 0) hw (by decide : Within 0 twoThirdsF)) h3) hsaw
      (within_pulseBlep hp hdt)

/-! ## The fold -/

theorem within_fold0 {d : F32} (hd : Within 13 d) : Within 19 (fold0 d) := by
  have h1 : Within 0 oneF := by decide
  have h4 : Within 2 fourF := by decide
  have ht : Within 14 (fAdd d oneF) := within_fAdd hd h1
  have hq : Within 14 (fDiv (fAdd d oneF) fourF) :=
    within_fDiv ht.isFinite h4.isFinite (by decide) (ht.trans (by decide))
  have hu : Within 17 (fSub (fAdd d oneF) (fMul fourF (fFloor (fDiv (fAdd d oneF) fourF)))) :=
    within_fSub ht (within_fMul (n := 16) h4 (within_fFloor hq))
  exact within_fSub h1 (within_fAbs (within_fSub (n := 17) hu (by decide : Within 1 twoF)))

theorem within_waveFold {x amount : F32} (hx : Within 10 x) (ha : Within 0 amount) (ty : FoldType) :
    Within 19 (waveFold x amount ty) := by
  have hdrive : Within 3 (fAdd oneF (fMul fourF amount)) :=
    within_fAdd (by decide : Within 0 oneF) (within_fMul (n := 2) (by decide : Within 2 fourF) ha)
  have hd : Within 13 (fMul x (fAdd oneF (fMul fourF amount))) := within_fMul hx hdrive
  have hclip := (within_softClip hd.isFinite).mono (k := 19)
  unfold waveFold
  split
  case isTrue => exact hx.mono
  case isFalse =>
    cases ty with
    | symmetric => exact within_fold0 hd
    | asymmetric =>
      dsimp only
      split
      · exact within_fold0 hd
      · exact hclip
    | softClip => exact hclip

/-! ## The operator pass -/

/-- The synth's parameters that an operator's output depends on lie in the ranges of R23 and R24. -/
structure SynthParamsWithin (P : Synth) : Prop where
  baseFreq : Within 20 P.baseFreq
  period : Within 0 P.dt
  coarse (i : Fin 4) : Within 20 P.ops[i].coarse
  fine (i : Fin 4) : Within 4 P.ops[i].fine
  level (i : Fin 4) : Within 0 P.ops[i].level
  warp (i : Fin 4) : Within 0 P.ops[i].warp
  fold (i : Fin 4) : Within 0 P.ops[i].fold

theorem synthParamsWithin_of_registerInv {s : State} (hs : RegisterInv s) : SynthParamsWithin s.syn := by
  have h := (registerInv_iff s).mp hs
  have hunit : ∀ {x}, inRange unitRange x = true → Within 0 x := within_of_inRange (by decide) (by decide)
  have hfreq : ∀ {x}, inRange freqRange x = true → Within 20 x := within_of_inRange (by decide) (by decide)
  exact {
    baseFreq := hfreq (h .synBaseFreq)
    period := hunit (h .synDt)
    coarse := fun i => hfreq (h (.opCoarse i))
    fine := fun i => within_of_inRange (b := ⟨zeroF, 0x41800000#32, zeroF⟩) (by decide) (by decide) (h (.opFine i))
    level := fun i => hunit (h (.opLevel i))
    warp := fun i => hunit (h (.opWarp i))
    fold := fun i => hunit (h (.opFold i)) }

theorem within_phaseInc {P : Synth} (hP : SynthParamsWithin P) (i : Fin 4) : Within 44 (phaseInc P i) := by
  have hfreq : Within 44 (opFreq P i) := by
    unfold opFreq
    split
    · exact within_fMul (hP.coarse i) (hP.fine i)
    · exact within_fMul (within_fMul (n := 40) hP.baseFreq (hP.coarse i)) (hP.fine i)
  exact within_fMul hfreq (within_fMul (n := 0) hP.period (by decide : Within 0 halfF))

/-- An operator's output is bounded for every phase and modulation, since the read phase is wrapped (R173). -/
theorem within_opOutput {c : Config} (hsin : SineWithin c) {P : Synth}
    (hP : SynthParamsWithin P) (i : Fin 4) (phase m : F32) : Within 19 (opOutput c P i phase m) :=
  within_waveFold (within_waveWarp hsin (legalPhase_wrap01 _) (hP.warp i) (within_phaseInc hP i).isFinite) (hP.fold i) _

/-- Operator j is evaluated in a pass in progress: its output, which is also its new previous output (R180), is
`opOutput`'s at some phase and modulation. -/
def Evaluated (c : Config) (P : Synth) (st : Pass) (j : Fin 4) : Prop :=
  ∃ phase m, st.out[j] = opOutput c P j phase m ∧ st.voices[j].prev = opOutput c P j phase m

/-- Evaluating operator i evaluates it, and leaves what is evaluated already. -/
theorem evaluated_evalOp {c : Config} {P : Synth} {st : Pass} {i j : Fin 4} (h : j = i ∨ Evaluated c P st j) (e : Word) :
    Evaluated c P (evalOp c P e st i) j := by
  by_cases hij : j = i
  · subst hij
    exact ⟨_, _, by simp only [evalOp, Fin.getElem_fin, Vector.getElem_set_self]; exact ⟨rfl, rfl⟩⟩
  · have hv : i.val ≠ j.val := fun hval => hij (Fin.ext hval.symm)
    obtain ⟨phase, m, hout, hprev⟩ := h.resolve_left hij
    exact ⟨phase, m, by simpa [evalOp, hv] using hout, by simpa [evalOp, hv] using hprev⟩

theorem evaluated_foldl (c : Config) (P : Synth) (e : Word) (j : Fin 4) (order : List (Fin 4)) :
    ∀ st, (j ∈ order ∨ Evaluated c P st j) → Evaluated c P (order.foldl (evalOp c P e) st) j := by
  induction order with
  | nil => intro st h; simpa using h
  | cons i rest ih =>
    intro st h
    refine ih (evalOp c P e st i) ?_
    rw [List.mem_cons, or_assoc, or_left_comm] at h
    exact h.imp_right fun h => evaluated_evalOp h e

/-- R167: a pass evaluates all four operators. -/
theorem evaluated_runPass (c : Config) (P : Synth) (e : Word) (v : Vector Voice 4) (j : Fin 4) :
    Evaluated c P (runPass c P e v) j :=
  evaluated_foldl c P e j evalOrder _ (.inl (by revert j; decide))

/-- A selective sum of terms within 2^k doubles its bound at most once a term. -/
theorem within_selectedSum {k : Nat} {term : Fin 4 → F32} (hterm : ∀ i, Within k (term i)) (selected : Fin 4 → Bool)
    (order : List (Fin 4)) :
    ∀ {n : Nat} {sum : F32}, Within n sum → k ≤ n → n + order.length ≤ 127 →
      Within (n + order.length) (order.foldl (fun sum i => if selected i then fAdd sum (term i) else sum) sum) := by
  induction order with
  | nil => intro n sum h _ _; exact h
  | cons i rest ih =>
    intro n sum h hk hn
    rw [List.length_cons] at hn ⊢
    have hnext : Within (n + 1) (if selected i then fAdd sum (term i) else sum) := by
      split
      · exact within_fAdd h (hterm i) le_rfl hk (by omega)
      · exact h.mono (by omega)
    rw [show n + (rest.length + 1) = n + 1 + rest.length by omega]
    exact ih hnext (by omega) (by omega)

/-- A pass leaves bounded outputs and a bounded mix (R179). -/
theorem within_operatorPass {c : Config} (hsin : SineWithin c) {P : Synth}
    (hP : SynthParamsWithin P) (e : Word) (v : Vector Voice 4) :
    (∀ i : Fin 4, Within 19 (operatorPass c P e v).1[i].prev) ∧ Within 23 (operatorPass c P e v).2 := by
  refine ⟨fun i => ?_, ?_⟩
  · obtain ⟨phase, m, -, hprev⟩ := evaluated_runPass c P e v i
    exact hprev ▸ within_opOutput hsin hP i phase m
  · have hterm : ∀ i : Fin 4, Within 19 (fMul (runPass c P e v).out[i] P.ops[i].level) := by
      intro i
      obtain ⟨phase, m, hout, -⟩ := evaluated_runPass c P e v i
      rw [hout]
      exact within_fMul (within_opOutput hsin hP i phase m) (hP.level i)
    exact within_selectedSum hterm (carrierBit e) evalOrder (n := 19) (by decide : Within 19 zeroF) le_rfl (by decide)

/-! ## The step -/

/-- R190 to R194: the previous outputs and the DC blocker's input that a SYN_STEP computes are finite, whatever the DC
blocker held. -/
theorem isFinite_synCompute {c : Config} (hsin : SineWithin c) {P : Synth}
    (hP : SynthParamsWithin P) (k : Nat) (e : Word) :
    (∀ i : Fin 4, isFinite (synCompute c k P e).voices[i].prev = true) ∧ isFinite (synCompute c k P e).dcbX1 = true := by
  obtain ⟨-, hmix0⟩ := within_operatorPass hsin hP e (opVoices P)
  obtain ⟨hprev, hmix1⟩ := within_operatorPass hsin hP e (operatorPass c P e (opVoices P)).1
  have hraw : Within 24 (fMul _ halfF) := within_fMul (within_fAdd (n := 23) hmix0 hmix1) (by decide : Within 0 halfF)
  exact ⟨fun i => (hprev i).isFinite, isFinite_flushDenormal hraw.isFinite⟩

theorem synthFinite_synStep {s : State} (hs : RegisterInv s) : SynthFinite (synStep machineConfig s) := by
  obtain ⟨hprev, hx1⟩ := isFinite_synCompute sineWithin_machineConfig (synthParamsWithin_of_registerInv hs) s.freeIdx
    s.algRom[s.syn.ctrl.alg]
  refine ⟨fun i => ?_, isFinite_sealNaN hx1 _ _⟩
  simp only [readReg, synStep, synStore_op]
  exact isFinite_sealNaN (hprev i) _ _

theorem synthFinite_reset : SynthFinite State.reset := ⟨by decide, by decide⟩

/-- The registers of `SynthFinite`. -/
def synthFiniteRegs : List Reg := [.opPrev 0, .opPrev 1, .opPrev 2, .opPrev 3, .dcbX1]

theorem synthFinite_iff (s : State) : SynthFinite s ↔ ∀ r ∈ synthFiniteRegs, isFinite (readReg s r) = true := by
  simp [SynthFinite, synthFiniteRegs, Fin.forall_fin_succ, and_assoc]

/-- `SynthFinite` survives where each register either is as it was or holds a finite value. -/
theorem synthFinite_of_regs {s t : State} (hs : SynthFinite s)
    (h : ∀ r ∈ synthFiniteRegs, readReg t r = readReg s r ∨ isFinite (readReg t r) = true) : SynthFinite t := by
  rw [synthFinite_iff] at hs ⊢
  intro r hr
  rcases h r hr with heq | hfin
  · rw [heq]; exact hs r hr
  · exact hfin

theorem isPlainState_of_mem_synthFiniteRegs {r : Reg} (h : r ∈ synthFiniteRegs) : isPlainState r := by
  simp only [synthFiniteRegs, List.mem_cons, List.not_mem_nil, or_false] at h
  rcases h with rfl | rfl | rfl | rfl | rfl <;> exact ⟨rfl, by simp⟩

theorem synthFinite_exec {i : Instr} {s t : State} (hinv : RegisterInv s) (hs : SynthFinite s) (h : exec i s = .next t) :
    SynthFinite t := by
  cases i with
  | nop => cases h; exact hs
  | synStep => cases h; exact synthFinite_synStep hinv
  | fltStep => exact synthFinite_of_regs hs fun r hr => .inl (readReg_exec_of_not_mem h (by revert r; decide))
  | synResetOps | synResetDcb | synReset | fltReset =>
    refine synthFinite_of_regs hs fun r _ => ?_
    rw [readReg_exec_reset (by decide) h]
    split
    · exact .inr (by decide)
    · exact .inl rfl

/-- Settles O57: a host write stores a finite word, the resets +0.0, and a SYN_STEP values that the parameters bound. -/
theorem synthOutputsStayFinite : Obligations.SynthOutputsStayFinite := by
  intro s t hinv hs h
  obtain ⟨bus, answer, status, rfl⟩ | ⟨q, v, rest, hq, -, rfl⟩ | ⟨rest, -, rfl⟩ | ⟨i, rest, -, hexec⟩ := step_next_cases h
  · exact hs
  · refine synthFinite_of_regs hs fun r hr => ?_
    by_cases hrq : r = q
    · subst hrq
      rw [readReg_setReg_same _ hq, sanitize_of_isPlainState (isPlainState_of_mem_synthFiniteRegs hr)]
      exact .inr (isFinite_finiteOrZero v)
    · exact .inl (by rw [readReg_setReg_other _ hrq, readReg_bus_answer])
  · exact synthFinite_reset
  · exact synthFinite_exec (registerInv_beside hinv rest none s.status) hs hexec

end Machine
end Sys2Proof

/-! SUPPORT. The warp morph at its interior thresholds (spec/41_waveform_polyblep.md). There the crossfade's amount is +0.0, and
a crossfade by +0.0 gives its first waveform again, bit for bit, unless that is -0.0. A sum is -0.0 only where both of its
operands are, so neither the triangle nor the corrected saw ever is. -/

namespace Sys2Proof

/-! ## Zeros of negative sign -/

theorem eq_negZeroF_of_mag {x : F32} (hm : mag x = 0) (hs : signBit x = true) : x = negZeroF := by
  have hx : isFinite x = true := isFinite_of_mag_le (b := zeroF) (by decide) (by omega)
  rw [← roundF_mag hx, hm, hs]
  decide

/-- A sum is -0.0 only where both operands are: an exact sum that is not zero has at least the smallest magnitude, and
rounding keeps that. -/
theorem eq_negZeroF_of_fAdd {x y : F32} (hx : isFinite x = true) (hy : isFinite y = true) (h : fAdd x y = negZeroF) :
    x = negZeroF ∧ y = negZeroF := by
  rw [fAdd_of_finite hx hy] at h
  split at h
  next hsum =>
    split at h
    next hs =>
      obtain ⟨hsx, hsy⟩ : signBit x = true ∧ signBit y = true := by simpa using hs
      rw [sval_of_signBit hsx, sval_of_signBit hsy] at hsum
      exact ⟨eq_negZeroF_of_mag (by omega) hsx, eq_negZeroF_of_mag (by omega) hsy⟩
    next => exact absurd h (by decide)
  next hsum =>
    have hle : mag 1#32 ≤ mag negZeroF := by
      rw [← h]
      exact le_mag_roundF (by decide) (by decide) (Nat.one_le_iff_ne_zero.mpr (Int.natAbs_ne_zero.mpr hsum)) _
    exact absurd hle (by decide)

/-! ## Operations with 0 and 1 -/

/-- Adding a zero of either sign leaves every finite number but -0.0. -/
theorem fAdd_of_mag_eq_zero {x z : F32} (hx : isFinite x = true) (hne : x ≠ negZeroF) (hz : mag z = 0) : fAdd x z = x := by
  have hzf : isFinite z = true := isFinite_of_mag_le hx (by omega)
  have hzv : sval z = 0 := by rw [← Int.natAbs_eq_zero, natAbs_sval, hz]
  rw [fAdd_of_finite hx hzf, hzv, Int.add_zero]
  split
  next h0 =>
    have hm : mag x = 0 := by rw [← natAbs_sval, h0]; rfl
    have hs : signBit x = false := by simpa using fun hs => hne (eq_negZeroF_of_mag hm hs)
    simpa [hs] using (eq_zeroF_of_mag hm hs).symm
  next h0 =>
    have hsign : decide (sval x < 0) = signBit x := by
      cases hs : signBit x with
      | false => rw [sval_of_not_signBit hs]; simp
      | true =>
        rw [sval_of_signBit hs] at h0 ⊢
        exact decide_eq_true (by omega)
    rw [hsign, roundF_natAbs_sval hx]

theorem oneF_fMul {x : F32} (hx : isFinite x = true) : fMul oneF x = x := by
  have h1 : mag oneF = 2 ^ 149 := by decide
  have hs : (signBit oneF != signBit x) = signBit x := Bool.false_bne _
  calc fMul oneF x = roundF (signBit x) (mag x * 2 ^ 149) (1 * 2 ^ 149) := by
        rw [fMul_of_finite (by decide) hx, h1, hs, Nat.mul_comm, Nat.one_mul]
    _ = x := by rw [roundF, roundMag_mul_right _ (Nat.two_pow_pos _), ← roundF, roundF_mag hx]

theorem mag_zeroF_fMul {x : F32} (hx : isFinite x = true) : mag (fMul zeroF x) = 0 :=
  Nat.le_zero.mp (mag_fMul_le (b := zeroF) (by decide) hx (by decide) (Nat.zero_mul _).le)

namespace Machine

/-! ## The waveforms at the thresholds -/

theorem triWave_ne_negZeroF {p : F32} (hp : legalPhase p = true) : triWave p ≠ negZeroF := by
  obtain ⟨hf, hs, -⟩ := (legalPhase_iff p).mp hp
  have h4 : Within 2 (fMul fourF p) := within_fMul (by decide : Within 2 fourF) (within_of_legalPhase hp)
  have h4f := h4.isFinite
  intro h
  unfold triWave at h
  split_ifs at h
  · have hsign : signBit (fMul fourF p) = false := by rw [signBit_fMul (by decide) hf, hs]; rfl
    rw [h] at hsign
    exact absurd hsign (by decide)
  · exact absurd (eq_negZeroF_of_fAdd (by decide) (by simpa using h4f) h).1 (by decide)
  · exact absurd (eq_negZeroF_of_fAdd h4f (by decide) h).2 (by decide)

theorem sawBlep_ne_negZeroF {p dt : F32} (hp : legalPhase p = true) (hdt : isFinite dt = true) :
    sawBlep p dt ≠ negZeroF := by
  have h2 : Within 1 (fMul twoF p) := within_fMul (by decide : Within 1 twoF) (within_of_legalPhase hp)
  have hsaw : Within 2 (sawWave p) := within_fSub h2 (by decide : Within 0 oneF)
  intro h
  have hraw : sawWave p = negZeroF :=
    (eq_negZeroF_of_fAdd hsaw.isFinite (within_fNeg (within_polyblep hp hdt)).isFinite h).1
  exact absurd (eq_negZeroF_of_fAdd h2.isFinite (by decide) hraw).2 (by decide)

/-! ## The crossfade and the morph -/

/-- A crossfade by +0.0 is its first waveform: u is multiplied by 1.0, and a zero is added. -/
theorem xfade_zeroF {u v : F32} (hu : isFinite u = true) (hv : isFinite v = true) (hne : u ≠ negZeroF) :
    xfade zeroF u v = u := by
  have h1 : fSub oneF zeroF = oneF := by decide
  rw [xfade, h1, oneF_fMul hu, fAdd_of_mag_eq_zero hu hne (mag_zeroF_fMul hv)]

/-- R138: THIRD belongs to the segment above it, where the amount is +0.0. -/
theorem waveWarp_thirdF (c : Config) (p dt : F32) : waveWarp c p thirdF dt = xfade zeroF (triWave p) (sawBlep p dt) := by
  have ha : fMul (fSub thirdF thirdF) threeF = zeroF := by decide
  rw [waveWarp, if_neg (by decide), if_pos (by decide), ha]

/-- R138: TWO_THIRDS belongs to the segment above it, where the amount is +0.0. -/
theorem waveWarp_twoThirdsF (c : Config) (p dt : F32) :
    waveWarp c p twoThirdsF dt = xfade zeroF (sawBlep p dt) (pulseBlep p dt) := by
  have ha : fMul (fSub twoThirdsF twoThirdsF) threeF = zeroF := by decide
  rw [waveWarp, if_neg (by decide), if_neg (by decide), ha]

/-- Settles O48: at both thresholds the morph is a crossfade by +0.0 of finite waveforms, the first of which is not -0.0. -/
theorem warpExactAtThresholds : Obligations.WarpExactAtThresholds := by
  intro c p dt hp hdt _
  have htri : isFinite (triWave p) = true := (within_triWave (within_of_legalPhase hp)).isFinite
  have hsaw : isFinite (sawBlep p dt) = true := (within_sawBlep hp hdt).isFinite
  have hpulse : isFinite (pulseBlep p dt) = true := (within_pulseBlep hp hdt).isFinite
  exact ⟨(waveWarp_thirdF c p dt).trans (xfade_zeroF htri hsaw (triWave_ne_negZeroF hp)),
    (waveWarp_twoThirdsF c p dt).trans (xfade_zeroF hsaw hpulse (sawBlep_ne_negZeroF hp hdt))⟩

end Machine
end Sys2Proof

/-! SUPPORT. Exact results. A magnitude that some finite number has is its own rounding, so dividing by 4, multiplying by 4 and
the floor are exact where their results are such magnitudes. -/

namespace Sys2Proof

/-! ## Representable magnitudes -/

/-- Some finite number has magnitude n. -/
def Representable (n : Nat) : Prop := ∃ b : F32, isFinite b = true ∧ mag b = n

theorem representable_mag {x : F32} (hx : isFinite x = true) : Representable (mag x) := ⟨x, hx, rfl⟩

theorem Representable.le_maxFinite {n : Nat} (h : Representable n) : n ≤ mag maxFinite := by
  obtain ⟨b, hb, rfl⟩ := h
  exact mag_le_maxFinite hb

/-- A magnitude is a significand of at most 24 bits times a power of two. -/
theorem Representable.exists_significand {n : Nat} (h : Representable n) : ∃ f e, f < 2 ^ 24 ∧ n = f * 2 ^ e := by
  obtain ⟨b, -, rfl⟩ := h
  rw [mag_eq_bitsMag]
  rcases bits_cases (b.toNat % 2 ^ 31) with hlow | ⟨e, f, hf, heq⟩
  · exact ⟨b.toNat % 2 ^ 31, 0, by omega, by rw [bitsMag_of_lt hlow, Nat.pow_zero, Nat.mul_one]⟩
  · exact ⟨2 ^ 23 + f, e, by omega, by rw [heq, bitsMag_of_split hf]⟩

/-- A magnitude is a multiple of 2^k, or it is below 2^23 times that. -/
theorem Representable.lt_or_dvd {n : Nat} (h : Representable n) (k : Nat) : n < 2 ^ 23 * 2 ^ k ∨ 2 ^ k ∣ n := by
  obtain ⟨f, e, hf, rfl⟩ := h.exists_significand
  rcases Nat.lt_or_ge e k with he | he
  · left
    calc f * 2 ^ e < 2 ^ 24 * 2 ^ e := Nat.mul_lt_mul_of_pos_right hf (Nat.two_pow_pos e)
      _ = 2 ^ 23 * 2 ^ (e + 1) := by ring
      _ ≤ 2 ^ 23 * 2 ^ k := Nat.mul_le_mul_left _ (Nat.pow_le_pow_right (by decide) he)
  · exact .inr ((Nat.pow_dvd_pow 2 he).mul_left f)

/-- A magnitude of at most 24 significant bits that is not too large is representable: a short significand takes a factor
from the power of two. -/
theorem representable_of_significand (e : Nat) :
    ∀ f, f < 2 ^ 24 → f * 2 ^ e ≤ mag maxFinite → Representable (f * 2 ^ e) := by
  have hpack : ∀ bits n, bits < 2 ^ 31 → bitsMag bits = n → n ≤ mag maxFinite → Representable n := by
    intro bits n hbits hn hle
    have hmag : mag (packF false bits) = n := (mag_packF false hbits).trans hn
    exact ⟨packF false bits, isFinite_of_mag_le (b := maxFinite) (by decide) (by omega), hmag⟩
  induction e with
  | zero =>
    intro f hf hle
    refine hpack f _ (by omega) ?_ hle
    rcases Nat.lt_or_ge f (2 ^ 23) with hs | hs
    · rw [bitsMag_of_lt hs, Nat.pow_zero, Nat.mul_one]
    · obtain ⟨g, rfl⟩ := Nat.exists_eq_add_of_le hs
      have := bitsMag_of_split (e := 0) (f := g) (by omega)
      rwa [Nat.zero_add, Nat.one_mul] at this
  | succ e ih =>
    intro f hf hle
    rcases Nat.lt_or_ge f (2 ^ 23) with hs | hs
    · have hdouble : f * 2 ^ (e + 1) = 2 * f * 2 ^ e := by ring
      rw [hdouble] at hle ⊢
      exact ih (2 * f) (by omega) hle
    · obtain ⟨g, rfl⟩ := Nat.exists_eq_add_of_le hs
      have hexp : e < 254 := by
        by_contra he
        have hlarge : 2 ^ 23 * 2 ^ 254 ≤ (2 ^ 23 + g) * 2 ^ (e + 1) :=
          Nat.mul_le_mul (by omega) (Nat.pow_le_pow_right (by decide) (by omega))
        rw [mag_maxFinite] at hle
        omega
      exact hpack ((e + 1 + 1) * 2 ^ 23 + g) _ (by omega) (bitsMag_of_split (by omega)) hle

/-- A representable magnitude is its own rounding. -/
theorem mag_roundF_of_representable {n num den : Nat} (hd : 0 < den) (hn : Representable n) (h : num = n * den) (neg : Bool) :
    mag (roundF neg num den) = n := by
  obtain ⟨b, hb, rfl⟩ := hn
  exact le_antisymm (mag_roundF_le hd hb h.le neg) (le_mag_roundF hd hb h.ge neg)

/-! ## Times and divided by 4 -/

theorem Representable.four_mul {n : Nat} (h : Representable n) (hle : 4 * n ≤ mag maxFinite) : Representable (4 * n) := by
  obtain ⟨f, e, hf, rfl⟩ := h.exists_significand
  have hshift : 4 * (f * 2 ^ e) = f * 2 ^ (e + 2) := by ring
  rw [hshift] at hle ⊢
  exact representable_of_significand _ f hf hle

/-- From 2^25 units up a magnitude has a quarter. -/
theorem Representable.exists_quarter {n : Nat} (h : Representable n) (hn : n = 0 ∨ 2 ^ 25 ≤ n) :
    ∃ k, n = 4 * k ∧ Representable k := by
  rcases hn with rfl | hge
  · exact ⟨0, rfl, h⟩
  · have hmax := h.le_maxFinite
    obtain ⟨f, e, hf, rfl⟩ := h.exists_significand
    obtain ⟨e, rfl⟩ : ∃ j, e = j + 2 := by
      refine ⟨e - 2, ?_⟩
      by_contra hlow
      obtain rfl | rfl : e = 0 ∨ e = 1 := by omega
      all_goals omega
    have hshift : f * 2 ^ (e + 2) = 4 * (f * 2 ^ e) := by ring
    exact ⟨f * 2 ^ e, hshift, representable_of_significand e f hf (by omega)⟩

/-! ## The floor -/

/-- A whole number less than 1 from a representable magnitude is representable: where the magnitude is not whole itself, it is below
2^23. -/
theorem Representable.whole {n w : Nat} (h : Representable n) (hw : w * 2 ^ 149 < n + 2 ^ 149) (hn : n < (w + 1) * 2 ^ 149) :
    Representable (w * 2 ^ 149) := by
  rcases h.lt_or_dvd 149 with hlt | ⟨j, hj⟩
  · exact representable_of_significand 149 w (by omega) (by rw [mag_maxFinite]; omega)
  · rw [show w * 2 ^ 149 = n by omega]
    exact h

/-- The floor is exact. -/
theorem mag_fFloor {x : F32} (hx : isFinite x = true) :
    mag (fFloor x) = if signBit x then (mag x + (2 ^ 149 - 1)) / 2 ^ 149 * 2 ^ 149 else mag x / 2 ^ 149 * 2 ^ 149 := by
  have hrep := representable_mag hx
  rw [fFloor_of_finite hx]
  split <;> exact mag_roundF_of_representable (by decide) (hrep.whole (by omega) (by omega)) (Nat.mul_one _).symm _

/-- The floor is less than 1 below the number. -/
theorem sval_lt_sval_fFloor_add {x : F32} (hx : isFinite x = true) : sval x < sval (fFloor x) + 2 ^ 149 := by
  have hmag := mag_fFloor hx
  have hsign := signBit_fFloor hx
  cases hs : signBit x with
  | false =>
    rw [hs] at hmag hsign
    rw [sval_of_not_signBit hs, sval_of_not_signBit hsign, hmag, if_neg Bool.false_ne_true]
    omega
  | true =>
    rw [hs] at hmag hsign
    rw [sval_of_signBit hs, sval_of_signBit hsign, hmag, if_pos rfl]
    omega

namespace Machine

/-! ## The symmetric fold -/

theorem mag_fourF : mag fourF = 4 * 2 ^ 149 := by decide

/-- A number that is +0.0, -0.0 or at least 2^25 units large is divided by 4 exactly. -/
theorem fDiv_fourF {x : F32} (hx : isFinite x = true) (h : mag x = 0 ∨ 2 ^ 25 ≤ mag x) :
    isFinite (fDiv x fourF) = true ∧ mag x = 4 * mag (fDiv x fourF) ∧ sval x = 4 * sval (fDiv x fourF) := by
  obtain ⟨k, hk, hrep⟩ := (representable_mag hx).exists_quarter h
  have hsign : (signBit x != signBit fourF) = signBit x := Bool.bne_false _
  have hdiv : fDiv x fourF = roundF (signBit x) (mag x * 2 ^ 149) (4 * 2 ^ 149) := by
    rw [fDiv_of_finite hx (by decide) (by decide), hsign, mag_fourF]
  have hmag : mag (fDiv x fourF) = k := by
    rw [hdiv]
    exact mag_roundF_of_representable (by decide) hrep (by rw [hk]; ring) _
  refine ⟨isFinite_of_mag_le hx (by omega), by omega, ?_⟩
  unfold sval
  rw [hmag, hdiv, signBit_roundF, hk]
  split <;> push_cast <;> ring

/-- A number is multiplied by 4 exactly, unless the product is too large. -/
theorem fourF_fMul {x : F32} (hx : isFinite x = true) (h : 4 * mag x ≤ mag maxFinite) :
    isFinite (fMul fourF x) = true ∧ sval (fMul fourF x) = 4 * sval x := by
  have hmul : fMul fourF x = roundF (signBit x) (4 * mag x * 2 ^ 149) (2 ^ 149) := by
    rw [fMul_of_finite (by decide) hx, mag_fourF, show (signBit fourF != signBit x) = signBit x from Bool.false_bne _]
    congr 1
    ring
  have hmag : mag (fMul fourF x) = 4 * mag x := by
    rw [hmul]
    exact mag_roundF_of_representable (by decide) ((representable_mag hx).four_mul h) rfl _
  refine ⟨isFinite_of_mag_le (b := maxFinite) (by decide) (by omega), ?_⟩
  unfold sval
  rw [hmag, hmul, signBit_roundF]
  split <;> push_cast <;> ring

/-- R151's shift d + 1 does not overflow: beyond the largest finite number, 1.0 is less than half a step. -/
theorem isFinite_fAdd_oneF {d : F32} (hd : isFinite d = true) : isFinite (fAdd d oneF) = true := by
  have hle := mag_le_maxFinite hd
  have hd1 := natAbs_sval d
  have h1 : sval oneF = 2 ^ 149 := by decide
  rw [fAdd_of_finite hd (by decide), h1]
  split
  · split <;> decide
  · rw [isFinite_iff_bits, roundF, packF_toNat _ _ (roundMag_lt _ _)]
    have hmono : roundMag (sval d + 2 ^ 149).natAbs 1 ≤ roundMag (mag maxFinite + 2 ^ 149) 1 :=
      roundMag_mono (by decide) (by omega)
    have hmax : roundMag (mag maxFinite + 2 ^ 149) 1 = 0x7F7FFFFF := by rw [mag_maxFinite]; decide +kernel
    split <;> omega

/-- R151's shift d + 1 is 0 or at least 2^-24: the numbers around -1.0 are 2^-24 apart or more. -/
theorem mag_fAdd_oneF {d : F32} (hd : isFinite d = true) : mag (fAdd d oneF) = 0 ∨ 2 ^ 125 ≤ mag (fAdd d oneF) := by
  have h1 : sval oneF = 2 ^ 149 := by decide
  have hb : mag 0x33800000#32 = 2 ^ 125 := by decide
  rw [fAdd_of_finite hd (by decide), h1]
  split
  case isTrue => left; split <;> rfl
  case isFalse h0 =>
    right
    have hgap : 2 ^ 125 ≤ (sval d + 2 ^ 149).natAbs := by
      have hmag := natAbs_sval d
      rcases (representable_mag hd).lt_or_dvd 125 with hlt | ⟨j, hj⟩ <;> omega
    rw [← hb]
    exact le_mag_roundF (by decide) (by decide) (by omega) _

/-- What the fold takes from t, four times the floor of t/4, is finite and at most 4.0 below t. -/
theorem fold0_multiple {t : F32} (ht : isFinite t = true) (h : mag t = 0 ∨ 2 ^ 25 ≤ mag t) :
    let m := fMul fourF (fFloor (fDiv t fourF))
    isFinite m = true ∧ sval m ≤ sval t ∧ sval t ≤ sval m + 2 ^ 151 := by
  obtain ⟨hq, hqmag, hqval⟩ := fDiv_fourF ht h
  have hmax : 4 * mag (fFloor (fDiv t fourF)) ≤ mag maxFinite := by
    have hle := mag_le_maxFinite ht
    rw [mag_maxFinite] at hle ⊢
    rw [mag_fFloor hq]
    split <;> omega
  obtain ⟨hm, hmval⟩ := fourF_fMul (isFinite_fFloor hq) hmax
  have hlow := sval_fFloor_le hq
  have hhigh := sval_lt_sval_fFloor_add hq
  exact ⟨hm, by omega, by omega⟩

/-- R151: the shifted argument's rest u lies in [0, 4], so that |u - 2| is at most 2 and 1 - |u - 2| lies in [-1, 1]. -/
theorem mag_fold0_le {d : F32} (hd : isFinite d = true) : mag (fold0 d) ≤ mag oneF := by
  have ht := isFinite_fAdd_oneF hd
  obtain ⟨hm, hlow, hhigh⟩ := fold0_multiple ht ((mag_fAdd_oneF hd).imp_right (le_trans (by decide)))
  have hvals : sval zeroF = 0 ∧ sval oneF = 2 ^ 149 ∧ sval (fNeg twoF) = -2 ^ 150 ∧ mag oneF = 2 ^ 149 ∧ mag twoF = 2 ^ 150 := by
    decide
  obtain ⟨v0, v1, v2, m1, m2⟩ := hvals
  rw [fold0]
  generalize fAdd d oneF = t at ht hm hlow hhigh
  generalize fMul fourF (fFloor (fDiv t fourF)) = m at hm hlow hhigh
  have hm' : isFinite (fNeg m) = true := by simpa using hm
  have hu4 : mag (fSub t m) ≤ mag fourF :=
    mag_fAdd_le_of_sum ht hm' (by decide) (by rw [sval_fNeg, mag_fourF]; omega)
  have hu0 : sval zeroF ≤ sval (fSub t m) :=
    le_sval_fAdd ht hm' (by decide) (by decide) (by rw [sval_fNeg]; omega)
  have hu : isFinite (fSub t m) = true := isFinite_of_mag_le (by decide) hu4
  have hw : mag (fSub (fSub t m) twoF) ≤ mag twoF :=
    mag_fAdd_le_of_sum hu (by decide) (by decide) (by
      have := natAbs_sval (fSub t m)
      rw [mag_fourF] at hu4
      omega)
  generalize fSub (fSub t m) twoF = w at hw
  have hwf : isFinite w = true := isFinite_of_mag_le (by decide) hw
  refine mag_fAdd_le_of_sum (by decide) (by simpa using hwf) (by decide) ?_
  rw [sval_fNeg, sval_of_not_signBit (signBit_fAbs w), mag_fAbs]
  omega

/-- Settles O46: the fold's magnitude is at most 1.0. -/
theorem symmetricFoldBounded : Obligations.SymmetricFoldBounded := by
  intro d hd
  have hmag := mag_fold0_le hd
  have hn := isNaN_of_isFinite (isFinite_of_mag_le (by decide) hmag)
  have hvals : isNaN 0xBF800000#32 = false ∧ isNaN 0x3F800000#32 = false ∧ sval 0xBF800000#32 = -mag oneF ∧
      sval 0x3F800000#32 = mag oneF := by decide
  rw [← natAbs_sval] at hmag
  simp only [fLe, hn, hvals, Bool.not_false, Bool.true_and, decide_eq_true_eq]
  omega

end Machine
end Sys2Proof

/-! SUPPORT. Every fold type's bound. The saturator's fraction x·(27 + x²)/(27 + 9x²) is at most 1 on [0, 3], because
27 + 9x² - x·(27 + x²) = (3 - x)³. Each of its operations but the quotient is off by at most 2^-16, and together they stay far
from a hundredth of the denominator, which is at least 27. -/

namespace Sys2Proof

/-! ## The error of one rounding -/

/-- The magnitude as a rational number. -/
def magQ (x : F32) : ℚ := mag x / 2 ^ 149

theorem magQ_nonneg (x : F32) : 0 ≤ magQ x := by unfold magQ; positivity

theorem magQ_mono {x y : F32} (h : mag x ≤ mag y) : magQ x ≤ magQ y :=
  div_le_div_of_nonneg_right (Nat.cast_le.mpr h) (by positivity)

theorem mag_eq_magQ (x : F32) : (mag x : ℚ) = magQ x * 2 ^ 149 := (div_mul_cancel₀ _ (by norm_num)).symm

/-- q is within 2^-16 of v, the most that one rounding is off for results up to 128. -/
def Near (q v : ℚ) : Prop := v ≤ q + 1 / 2 ^ 16 ∧ q ≤ v + 1 / 2 ^ 16

/-- Up to 128 the multiples of 2^-16 are representable, and rounding crosses none of them. -/
theorem near_roundF {num den : Nat} (hd : 0 < den) (h : num ≤ 2 ^ 156 * den) (neg : Bool) :
    Near (magQ (roundF neg num den)) (num / den / 2 ^ 149) := by
  have hgrid : ∀ j, j ≤ 2 ^ 23 + 1 → ∃ b, isFinite b = true ∧ mag b = j * 2 ^ 133 := fun j hj =>
    representable_of_significand 133 j (by omega) (by rw [mag_maxFinite]; omega)
  have hj : num / (den * 2 ^ 133) ≤ 2 ^ 23 := Nat.div_le_of_le_mul (by linarith)
  have hlow := Nat.div_mul_le_self num (den * 2 ^ 133)
  have hhigh := Nat.lt_div_mul_add (a := num) (b := den * 2 ^ 133) (by positivity)
  generalize num / (den * 2 ^ 133) = j at hj hlow hhigh
  obtain ⟨lo, flo, mlo⟩ := hgrid j (by omega)
  obtain ⟨hi, fhi, mhi⟩ := hgrid (j + 1) (by omega)
  have hrlow := le_mag_roundF (num := num) hd flo (by rw [mlo]; linarith) neg
  have hrhigh := mag_roundF_le (num := num) hd fhi (by rw [mhi]; linarith) neg
  rw [mlo, ← Nat.cast_le (α := ℚ), mag_eq_magQ] at hrlow
  rw [mhi, ← Nat.cast_le (α := ℚ), mag_eq_magQ] at hrhigh
  push_cast at hrlow hrhigh
  have hd' : (0 : ℚ) < den := Nat.cast_pos.mpr hd
  have hlow' : (j * 2 ^ 133 : ℚ) ≤ num / den := by
    rw [le_div_iff₀ hd']
    exact_mod_cast (by linarith)
  have hhigh' : (num / den : ℚ) ≤ (j + 1) * 2 ^ 133 := by
    rw [div_le_iff₀ hd']
    exact_mod_cast (by linarith)
  constructor <;> linarith

theorem near_fMul {x y : F32} (hx : isFinite x = true) (hy : isFinite y = true) (h : magQ x * magQ y ≤ 128) :
    Near (magQ (fMul x y)) (magQ x * magQ y) := by
  have hprod : (mag x * mag y : Nat) / (2 ^ 149 : Nat) / 2 ^ 149 = magQ x * magQ y := by
    unfold magQ
    push_cast
    ring
  have hle : mag x * mag y ≤ 2 ^ 156 * 2 ^ 149 := by
    rw [← Nat.cast_le (α := ℚ)]
    push_cast
    rw [mag_eq_magQ, mag_eq_magQ]
    linarith
  rw [← hprod, fMul_of_finite hx hy]
  exact near_roundF (by positivity) hle _

theorem near_fAdd {x y : F32} (hx : isFinite x = true) (hy : isFinite y = true) (sx : signBit x = false)
    (sy : signBit y = false) (h : magQ x + magQ y ≤ 128) : Near (magQ (fAdd x y)) (magQ x + magQ y) := by
  have hsum : (mag x + mag y : Nat) / (1 : Nat) / 2 ^ 149 = magQ x + magQ y := by
    unfold magQ
    push_cast
    ring
  have hle : mag x + mag y ≤ 2 ^ 156 * 1 := by
    rw [← Nat.cast_le (α := ℚ)]
    push_cast
    rw [mag_eq_magQ, mag_eq_magQ]
    linarith
  rw [← hsum, fAdd_of_finite hx hy, sval_of_not_signBit sx, sval_of_not_signBit sy]
  split
  case isTrue h0 =>
    have hz : mag x + mag y = 0 := by omega
    rw [sx, hz]
    norm_num [Near, magQ, show mag zeroF = 0 from rfl]
  case isFalse => exact near_roundF (by decide) hle _

namespace Machine

/-! ## The saturator -/

theorem magQ_softClip_constants : magQ threeF = 3 ∧ magQ nineF = 9 ∧ magQ twentySevenF = 27 := by
  have hmag : mag threeF = 3 * 2 ^ 149 ∧ mag nineF = 9 * 2 ^ 149 ∧ mag twentySevenF = 27 * 2 ^ 149 := by decide
  obtain ⟨m3, m9, m27⟩ := hmag
  norm_num [magQ, m3, m9, m27]

section
variable {x : F32} (h : mag x ≤ mag threeF)
include h

/-- R108's square of a number within ±3.0: finite, without a sign, at most 9, and near x². -/
theorem softClip_square :
    Within 4 (fMul x x) ∧ signBit (fMul x x) = false ∧ magQ (fMul x x) ≤ 9 ∧ Near (magQ (fMul x x)) (magQ x * magQ x) := by
  obtain ⟨q3, q9, -⟩ := magQ_softClip_constants
  have wx : Within 2 x := h.trans (by decide)
  have hx := magQ_mono h
  have hsq := magQ_mono (mag_square_le_nine h)
  rw [q3] at hx
  rw [q9] at hsq
  refine ⟨within_fMul wx wx, ?_, hsq, near_fMul wx.isFinite wx.isFinite ?_⟩
  · rw [signBit_fMul wx.isFinite wx.isFinite, bne_self_eq_false]
  · exact (mul_le_mul hx hx (magQ_nonneg x) (by norm_num)).trans (by norm_num)

/-- The computed numerator of R108: its error is that of one product, and three times that of a square and a sum. -/
theorem magQ_softClip_numerator_le :
    magQ (fMul x (fAdd twentySevenF (fMul x x))) ≤ magQ x * (27 + magQ x * magQ x) + 7 / 2 ^ 16 := by
  obtain ⟨q3, -, q27⟩ := magQ_softClip_constants
  obtain ⟨wsq, ssq, hsq, -, hsqNear⟩ := softClip_square h
  have wx : Within 2 x := h.trans (by decide)
  have wsum : Within 6 (fAdd twentySevenF (fMul x x)) := within_fAdd (n := 5) (by decide : Within 5 twentySevenF) wsq
  have hx0 := magQ_nonneg x
  have hx3 := magQ_mono h
  rw [q3] at hx3
  obtain ⟨-, hsum⟩ := near_fAdd (x := twentySevenF) (by decide) wsq.isFinite (by decide) ssq (by rw [q27]; linarith)
  rw [q27] at hsum
  generalize fAdd twentySevenF (fMul x x) = a at wsum hsum
  have hprod : magQ x * magQ a ≤ 3 * 37 := mul_le_mul hx3 (by linarith) (magQ_nonneg a) (by norm_num)
  obtain ⟨-, hnum⟩ := near_fMul wx.isFinite wsum.isFinite (by linarith)
  have herr : magQ x * magQ a ≤ magQ x * (27 + magQ x * magQ x + 2 / 2 ^ 16) :=
    mul_le_mul_of_nonneg_left (by linarith) hx0
  linarith

/-- The computed denominator of R108: its error is that of a product and a sum, and nine times that of a square. -/
theorem le_magQ_softClip_denominator :
    27 + 9 * (magQ x * magQ x) ≤ magQ (fAdd twentySevenF (fMul nineF (fMul x x))) + 11 / 2 ^ 16 := by
  obtain ⟨-, q9, q27⟩ := magQ_softClip_constants
  obtain ⟨wsq, ssq, hsq, hsqNear, -⟩ := softClip_square h
  have w9 : Within 4 nineF := by decide
  have wprod : Within 8 (fMul nineF (fMul x x)) := within_fMul w9 wsq
  have sprod : signBit (fMul nineF (fMul x x)) = false := by rw [signBit_fMul w9.isFinite wsq.isFinite, ssq]; decide
  obtain ⟨hprod, hprodLe⟩ := near_fMul w9.isFinite wsq.isFinite (by rw [q9]; linarith)
  rw [q9] at hprod hprodLe
  obtain ⟨hden, -⟩ := near_fAdd (x := twentySevenF) (by decide) wprod.isFinite (by decide) sprod (by rw [q27]; linarith)
  rw [q27] at hden
  linarith

/-- The exact numerator is at most the exact denominator, by (3 - x)³, and the errors are small against 27. -/
theorem magQ_softClip_numerator_le_denominator :
    magQ (fMul x (fAdd twentySevenF (fMul x x))) ≤ 1.009 * magQ (fAdd twentySevenF (fMul nineF (fMul x x))) := by
  obtain ⟨q3, -, -⟩ := magQ_softClip_constants
  have hnum := magQ_softClip_numerator_le h
  have hden := le_magQ_softClip_denominator h
  have hcube : 0 ≤ (3 - magQ x) ^ 3 := pow_nonneg (sub_nonneg.mpr (q3 ▸ magQ_mono h)) 3
  have hsquare := mul_self_nonneg (magQ x)
  linarith

end

/-- The bound 1.01 of R154's test. -/
def foldBoundF : F32 := 0x3F8147AE#32

/-- The saturator keeps every number within ±1.01. -/
theorem mag_softClip_le_foldBoundF {x : F32} (hx : isNaN x = false) : mag (softClip x) ≤ mag foldBoundF := by
  rcases softClip_cases hx with h | h | ⟨h3, h⟩ <;> rw [h]
  · decide
  · decide
  · have hratio := magQ_softClip_numerator_le_denominator h3
    have hnum := mag_softClip_numerator_le h3
    obtain ⟨hlow, hhigh⟩ := mag_softClip_denominator h3
    have h27 : 0 < mag twentySevenF := by decide
    have hbound : mag foldBoundF = 0x8147AE * 2 ^ 126 := by decide
    refine mag_fDiv_le (isFinite_of_mag_le (by decide) hnum) (isFinite_of_mag_le (by decide) hhigh) (by decide)
      (by omega) ?_
    rw [hbound, ← Nat.cast_le (α := ℚ)]
    push_cast
    rw [mag_eq_magQ, mag_eq_magQ]
    linarith [magQ_nonneg (fAdd twentySevenF (fMul nineF (fMul x x)))]

/-! ## Every fold type -/

/-- R150, R152, R153: with a positive amount every type folds or saturates the driven value. -/
theorem waveFold_cases {amount : F32} (ha : fLt zeroF amount = true) (x : F32) (ty : FoldType) :
    let d := fMul x (fAdd oneF (fMul fourF amount))
    waveFold x amount ty = fold0 d ∨ waveFold x amount ty = softClip d := by
  have hpos : fLe amount zeroF = false := by
    simp only [fLt, fLe, Bool.and_eq_true, Bool.and_eq_false_iff, decide_eq_true_eq, decide_eq_false_iff_not] at ha ⊢
    omega
  simp only [waveFold, hpos, if_neg Bool.false_ne_true]
  cases ty with
  | symmetric => exact .inl rfl
  | asymmetric => exact ite_eq_or_eq _ _ _
  | softClip => exact .inr rfl

theorem mag_le_of_fLe_fAbs {x b : F32} (sb : signBit b = false) (h : fLe (fAbs x) b = true) : mag x ≤ mag b := by
  simp only [fLe, sval_of_not_signBit (signBit_fAbs x), sval_of_not_signBit sb, Bool.and_eq_true, decide_eq_true_eq,
    mag_fAbs, Int.ofNat_le] at h
  exact h.2

theorem within_zero_of_amount {amount : F32} (hpos : fLt zeroF amount = true) (hle : fLe amount oneF = true) :
    Within 0 amount := by
  have hv : sval zeroF = 0 ∧ sval oneF = 2 ^ 149 := by decide
  simp only [fLt, fLe, hv, Bool.and_eq_true, decide_eq_true_eq] at hpos hle
  rw [Within, ← natAbs_sval]
  omega

/-- Settles O47: the driven value is finite, so that the fold gives at most 1.0 and the saturator at most 1.01. -/
theorem foldOutputBounded : Obligations.FoldOutputBounded := by
  intro x amount ty hx hpos hle
  have wx : Within 1 x := (mag_le_of_fLe_fAbs (by decide) hx).trans (by decide)
  have wdrive : Within 3 (fAdd oneF (fMul fourF amount)) :=
    within_fAdd (by decide : Within 0 oneF)
      (within_fMul (n := 2) (by decide : Within 2 fourF) (within_zero_of_amount hpos hle))
  have wd : Within 4 (fMul x (fAdd oneF (fMul fourF amount))) := within_fMul wx wdrive
  refine fLe_fAbs_of_mag_le (b := foldBoundF) (by decide) (by decide) ?_
  rcases waveFold_cases hpos x ty with h | h <;> rw [h]
  · exact (mag_fold0_le wd.isFinite).trans (by decide)
  · exact mag_softClip_le_foldBoundF (isNaN_of_isFinite wd.isFinite)

end Machine
end Sys2Proof

/-! SUPPORT. The algorithm table and the phase accumulators (spec/43_operator_routing.md): what every ROM entry keeps clear, which
accesses change an accumulator, and what a SYN_STEP leaves in one. -/

namespace Sys2Proof.Machine

/-! ## The algorithm table (R32, R177) -/

/-- The bits an algorithm entry may have: a modulation with src > dst, or a carrier. -/
def algEntryMask : Word := 0x000F7310#32

theorem algTable_masked (a : Fin 11) : ∃ w, machineConfig.algTable a = w &&& algEntryMask := by
  change ∃ w, algTableOf Config.algTableRaw Config.algAllCarriersDefault a = w &&& algEntryMask
  unfold algTableOf
  split
  · exact ⟨Config.allCarriersWord, by decide⟩
  · exact ⟨_, rfl⟩

/-- No upward or self modulation is in the mask. -/
theorem getLsbD_algEntryMask : ∀ src dst : Fin 4, src ≤ dst → algEntryMask.getLsbD (4 * src.val + dst.val) = false := by
  decide

/-- Settles O17: an entry's bits lie in the mask, which has none of those that are to be clear. -/
theorem romMeetsTableConstraints : Obligations.RomMeetsTableConstraints := by
  intro s hrom
  have hread : ∀ a : Fin 11, busRead s (BitVec.ofNat 9 (0x180 + 4 * a.val)) = machineConfig.algTable a :=
    fun a => (busRead_regAddr s (.algRom a)).trans (hrom a)
  refine ⟨hread Config.algAllCarriersDefault, fun a => ?_⟩
  obtain ⟨w, hw⟩ := algTable_masked a
  simp only [hread a, hw]
  refine ⟨fun src dst hle => ?_, ?_⟩
  · rw [BitVec.getLsbD_and, getLsbD_algEntryMask src dst hle, Bool.and_false]
  · rw [BitVec.extractLsb'_and, show algEntryMask.extractLsb' 20 12 = 0#12 by decide, BitVec.and_zero]

/-! ## The writers of a register -/

/-- A register other than STATUS changes in a step only by a command that writes it, by a host write of it, or by a reset. -/
theorem step_changes_by_writer {r : Reg} (hst : r ≠ .status) {s t : State} (h : step s = .next t)
    (hne : readReg t r ≠ readReg s r) :
    ∃ e rest, s.bus = e :: rest ∧
      ((∃ j, r ∈ writtenRegs j ∧ e = .write .w32 0x1F8#9 (encode j)) ∨ (∃ v, e = .write .w32 (regAddr r) v) ∨
        e = .reset) := by
  obtain ⟨bus, answer, status, rfl⟩ | ⟨q, v, rest, -, hbus, rfl⟩ | ⟨rest, hbus, -⟩ | ⟨j, rest, hbus, hexec⟩ :=
    step_next_cases h
  · exact absurd (readReg_beside hst s bus answer status) hne
  · have hrq : r = q := by
      by_contra hrq
      exact hne (by rw [readReg_setReg_other _ hrq, readReg_bus_answer])
    exact ⟨_, rest, hbus, .inr (.inl ⟨v, by rw [hrq]⟩)⟩
  · exact ⟨_, rest, hbus, .inr (.inr rfl)⟩
  · have hmem : r ∈ writtenRegs j := by
      by_contra hnot
      exact hne (by rw [readReg_exec_of_not_mem hexec hnot, readReg_bus_answer])
    exact ⟨_, rest, hbus, .inl ⟨j, hmem, rfl⟩⟩

theorem command_writes_opPhase {j : Instr} {i : Fin 4} (h : .opPhase i ∈ writtenRegs j) :
    j = .synStep ∨ j = .synResetOps ∨ j = .synReset := by
  revert i
  cases j <;> decide

/-- Settles O51: three commands write a phase register, with the words 1, 2 and 4. -/
theorem phaseChangesOnlyByItsWriters : Obligations.PhaseChangesOnlyByItsWriters := by
  intro s t i h hne
  obtain ⟨e, rest, hbus, ⟨j, hmem, he⟩ | hwrite | hreset⟩ := step_changes_by_writer (by simp) h hne
  · refine ⟨e, rest, hbus, ?_⟩
    rcases command_writes_opPhase hmem with rfl | rfl | rfl
    · exact .inl he
    · exact .inr (.inl he)
    · exact .inr (.inr (.inl he))
  · exact ⟨e, rest, hbus, .inr (.inr (.inr (.inl hwrite)))⟩
  · exact ⟨e, rest, hbus, .inr (.inr (.inr (.inr hreset)))⟩

/-! ## The accumulators over a SYN_STEP -/

/-- R164, R190: the two passes advance an accumulator twice, and a wrapped phase is stored as it is. -/
theorem opPhase_synStep (c : Config) (s : State) (i : Fin 4) :
    readReg (synStep c s) (.opPhase i) = advancePhase s.syn i (advancePhase s.syn i s.syn.ops[i].phase) := by
  have hnan : isNaN (advancePhase s.syn i (advancePhase s.syn i s.syn.ops[i].phase)) = false :=
    isNaN_of_isFinite ((legalPhase_iff _).mp (legalPhase_wrap01 _)).1
  simp only [readReg, synStep, synStore_op, synCompute, operatorPass_phase, opVoices_get, sealNaN_of_not_isNaN hnan]

/-- Settles O23: the increment is `phaseInc`, written out. -/
theorem synStepAdvancesPhases : Obligations.SynStepAdvancesPhases := by
  refine fun s => ⟨_, rfl, fun i => ?_⟩
  have haddr : BitVec.ofNat 9 (0x058 + 0x20 * i.val) = regAddr (.opPhase i) := by revert i; decide
  rw [haddr, busRead_regAddr, opPhase_synStep]
  rfl

/-- An increment is made of the operator's frequency mode, coarse and fine, the base frequency and the period (R161, R163). -/
theorem phaseInc_congr {P Q : Synth} {i : Fin 4} (hmode : P.ctrl.fmode = Q.ctrl.fmode) (hbase : P.baseFreq = Q.baseFreq)
    (hdt : P.dt = Q.dt) (hcoarse : P.ops[i].coarse = Q.ops[i].coarse) (hfine : P.ops[i].fine = Q.ops[i].fine) :
    phaseInc P i = phaseInc Q i := by
  simp only [phaseInc, opFreq, oversampledPeriod, hmode, hbase, hdt, hcoarse, hfine]

/-- Settles O27: the advance reads the phase and the increment alone. -/
theorem modulationNeverMovesPhase : Obligations.ModulationNeverMovesPhase := by
  refine fun s u hmode hbase hdt hops => ⟨_, _, rfl, rfl, fun i => ?_⟩
  obtain ⟨hphase, hcoarse, hfine⟩ := hops i
  simp only [busRead_regAddr, opPhase_synStep, advancePhase, phaseInc_congr hmode hbase hdt hcoarse hfine, hphase]

/-! ## A period of zero (R166) -/

theorem synthParamsWithin_of_paramsLegal {s : State} (hs : ParamsLegal s) : SynthParamsWithin s.syn where
  baseFreq := within_of_inRange (by decide) (by decide) (hs .synBaseFreq _ rfl)
  period := within_of_inRange (by decide) (by decide) (hs .synDt _ rfl)
  coarse i := within_of_inRange (by decide) (by decide) (hs (.opCoarse i) _ rfl)
  fine i := within_of_inRange (by decide) (by decide) (hs (.opFine i) _ rfl)
  level i := within_of_inRange (by decide) (by decide) (hs (.opLevel i) _ rfl)
  warp i := within_of_inRange (by decide) (by decide) (hs (.opWarp i) _ rfl)
  fold i := within_of_inRange (by decide) (by decide) (hs (.opFold i) _ rfl)

theorem isFinite_opFreq {P : Synth} (hP : SynthParamsWithin P) (i : Fin 4) : isFinite (opFreq P i) = true := by
  unfold opFreq
  split
  · exact (within_fMul (n := 24) (hP.coarse i) (hP.fine i)).isFinite
  · exact (within_fMul (n := 44) (within_fMul (n := 40) hP.baseFreq (hP.coarse i)) (hP.fine i)).isFinite

/-- A finite number times a zero is a zero. -/
theorem mag_fMul_of_mag_eq_zero {x y : F32} (hx : isFinite x = true) (hy : isFinite y = true) (h : mag x = 0 ∨ mag y = 0) :
    mag (fMul x y) = 0 :=
  Nat.le_zero.mp (mag_fMul_le (b := zeroF) hx hy (by decide) (by rw [Nat.mul_eq_zero.mpr h]; exact Nat.zero_le _))

theorem mag_phaseInc_of_zero_period {P : Synth} (hP : SynthParamsWithin P) (hdt : mag P.dt = 0) (i : Fin 4) :
    mag (phaseInc P i) = 0 := by
  have hperiod : mag (oversampledPeriod P) = 0 := mag_fMul_of_mag_eq_zero hP.period.isFinite (by decide) (.inl hdt)
  exact mag_fMul_of_mag_eq_zero (isFinite_opFreq hP i) (isFinite_of_mag_le (b := zeroF) (by decide) hperiod.le) (.inr hperiod)

/-- An increment of a zero leaves a phase: it is no -0.0, and it is wrapped already. -/
theorem advancePhase_of_zero_inc {P : Synth} {i : Fin 4} (hinc : mag (phaseInc P i) = 0) {p : F32}
    (hp : legalPhase p = true) : advancePhase P i p = p := by
  obtain ⟨hf, hs, -⟩ := (legalPhase_iff p).mp hp
  have hne : p ≠ negZeroF := by
    rintro rfl
    exact absurd hs (by decide)
  rw [advancePhase, fAdd_of_mag_eq_zero hf hne hinc, wrap01_of_legalPhase hp]

/-- Settles O28: with legal parameters a zero period makes every increment a zero. -/
theorem zeroPeriodHoldsPhase : Obligations.ZeroPeriodHoldsPhase := by
  refine fun s hparams hphases hdt => ⟨_, rfl, fun i => ?_⟩
  have hinc := mag_phaseInc_of_zero_period (synthParamsWithin_of_paramsLegal hparams) (by simpa [isZeroF] using hdt) i
  have hhold : advancePhase s.syn i s.syn.ops[i].phase = s.syn.ops[i].phase := advancePhase_of_zero_inc hinc (hphases i)
  rw [busRead_regAddr, busRead_regAddr, opPhase_synStep, hhold, hhold]
  rfl

end Sys2Proof.Machine

/-! SUPPORT. The operator pass (spec/43_operator_routing.md sections 3 to 6): its operators written out one by one, and what an
operator's registers do not depend on. -/

namespace Sys2Proof.Machine

/-! ## The gathered modulation (R168, R169) -/

/-- R168: operator k's gathered modulation reads the levels and outputs of the operators above it alone. -/
theorem gatherMod_congr {P Q : Synth} {p q : Vector F32 4} {k : Fin 4} (hdepth : P.modDepth = Q.modDepth)
    (hsrc : ∀ src : Fin 4, k < src → p[src] = q[src] ∧ P.ops[src].level = Q.ops[src].level) (e : Word) :
    gatherMod P e p k = gatherMod Q e q k := by
  unfold gatherMod
  congr 1
  funext g src
  refine ite_congr rfl (fun hterm => ?_) (fun _ => rfl)
  obtain ⟨hout, hlevel⟩ := hsrc src hterm.1
  rw [hout, hlevel, hdepth]

section
variable (P : Synth) (e : Word) (out : Vector F32 4)

/-- The outputs stored by operator k and those below it do not change what operator k gathers. -/
theorem gatherMod_set {i : Nat} {k : Fin 4} (h : i ≤ k.val) (y : F32) :
    gatherMod P e (out.set i y (h.trans_lt k.isLt)) k = gatherMod P e out k := by
  refine gatherMod_congr rfl (fun src hsrc => ⟨?_, rfl⟩) e
  have hne : i ≠ src.val := (h.trans_lt hsrc).ne
  simp [hne]

/-- Operator src's term in operator dst's gathered modulation, added to the sum g where the entry has its bit (R169). -/
def addTerm (src dst : Fin 4) (g : F32) : F32 :=
  if e.getLsbD (4 * src.val + dst.val) then fAdd g (fMul (fMul out[src] P.ops[src].level) P.modDepth) else g

theorem gatherMod_three : gatherMod P e out 3 = zeroF := rfl

theorem gatherMod_two : gatherMod P e out 2 = addTerm P e out 3 2 zeroF := by
  simp [gatherMod, evalOrder, addTerm, modBit]

theorem gatherMod_one : gatherMod P e out 1 = addTerm P e out 2 1 (addTerm P e out 3 1 zeroF) := by
  simp [gatherMod, evalOrder, addTerm, modBit]

theorem gatherMod_zero :
    gatherMod P e out 0 = addTerm P e out 1 0 (addTerm P e out 2 0 (addTerm P e out 3 0 zeroF)) := by
  simp [gatherMod, evalOrder, addTerm, modBit]

end

/-! ## The pass written out (R180) -/

/-- Operator i's output from its registers at a pass's start and its gathered modulation g (R172 to R175). -/
def voiceOutput (c : Config) (P : Synth) (v : Vector Voice 4) (i : Fin 4) (g : F32) : F32 :=
  opOutput c P i (advancePhase P i v[i].phase) (fAdd g (selfFeedback P i v[i].prev))

section
variable (c : Config) (P : Synth) (e : Word) (v : Vector Voice 4) (i : Fin 4)

/-- R167, R168: what an operator gathers from the outputs of the whole pass is what it gathered when it was evaluated. -/
theorem runPass_out :
    (runPass c P e v).out[i] = voiceOutput c P v i (gatherMod P e (runPass c P e v).out i) := by
  fin_cases i <;> simp [runPass, evalOrder, evalOp, gatherMod_set, voiceOutput]

/-- R180: a pass stores an operator's advanced phase and its output. -/
theorem runPass_voice :
    (runPass c P e v).voices[i] = { phase := advancePhase P i v[i].phase, prev := (runPass c P e v).out[i] } := by
  fin_cases i <;> simp [runPass, evalOrder, evalOp]

end

/-- Settles O24: the four outputs are solved in the order 3, 2, 1, 0, each from those before it. -/
theorem operatorPassUnrolls : Obligations.OperatorPassUnrolls := by
  intro c P e v
  have h3 := runPass_out c P e v 3
  have h2 := runPass_out c P e v 2
  have h1 := runPass_out c P e v 1
  have h0 := runPass_out c P e v 0
  rw [gatherMod_three] at h3
  rw [gatherMod_two, addTerm, h3] at h2
  rw [gatherMod_one, addTerm, addTerm, h3, h2] at h1
  rw [gatherMod_zero, addTerm, addTerm, addTerm, h3, h2, h1] at h0
  refine Prod.ext (Vector.ext fun i hi => (runPass_voice c P e v ⟨i, hi⟩).trans ?_) ?_
  · match i with
    | 0 => exact congrArg _ h0
    | 1 => exact congrArg _ h1
    | 2 => exact congrArg _ h2
    | 3 => exact congrArg _ h3
  · simp only [operatorPass, carrierMix, evalOrder, List.foldl, carrierBit, h3, h2, h1, h0]
    rfl

/-! ## The base frequency in fixed mode (R161, R162) -/

theorem phaseInc_baseFreq {P : Synth} (hmode : P.ctrl.fmode = 0xF#4) (f : F32) :
    phaseInc { P with baseFreq := f } = phaseInc P := by
  funext i
  have hfixed : P.ctrl.fmode.getLsbD i.val = true := by rw [hmode]; revert i; decide
  simp only [phaseInc, opFreq, oversampledPeriod, hfixed, if_true]

/-- Nothing but the increments reads the base frequency. -/
theorem operatorPass_baseFreq {P : Synth} (hmode : P.ctrl.fmode = 0xF#4) (c : Config) (f : F32) (e : Word)
    (v : Vector Voice 4) : operatorPass c { P with baseFreq := f } e v = operatorPass c P e v := by
  have heval : evalOp c { P with baseFreq := f } e = evalOp c P e := by
    funext st i
    simp only [evalOp, advancePhase, opOutput, phaseInc_baseFreq hmode]
    rfl
  simp only [operatorPass, runPass, heval]
  rfl

/-- Settles O29: both passes, and with them all that is stored, are the same. -/
theorem fixedModeIgnoresBaseFreq : Obligations.FixedModeIgnoresBaseFreq := by
  refine fun s f hmode => ⟨_, rfl, ?_⟩
  simp only [exec, execSynStep, synStep, synCompute, operatorPass_baseFreq hmode]
  rfl

/-! ## The operators above (R167, R168, R338) -/

/-- Two synths agree in what the operators from i up read. -/
structure AgreeFrom (i : Fin 4) (P Q : Synth) : Prop where
  ctrl : P.ctrl = Q.ctrl
  modDepth : P.modDepth = Q.modDepth
  baseFreq : P.baseFreq = Q.baseFreq
  dt : P.dt = Q.dt
  ops (j : Fin 4) : i ≤ j → P.ops[j] = Q.ops[j]

/-- Two passes in progress agree in the operators from i up. -/
def PassesAgreeFrom (i : Fin 4) (p q : Pass) : Prop :=
  ∀ j : Fin 4, i ≤ j → p.voices[j] = q.voices[j] ∧ p.out[j] = q.out[j]

section
variable {i : Fin 4} {P Q : Synth} (hPQ : AgreeFrom i P Q)
include hPQ

theorem phaseInc_of_agreeFrom {k : Fin 4} (hk : i ≤ k) : phaseInc P k = phaseInc Q k :=
  phaseInc_congr (by rw [hPQ.ctrl]) hPQ.baseFreq hPQ.dt (by rw [hPQ.ops k hk]) (by rw [hPQ.ops k hk])

/-- Evaluating an operator keeps the agreement: from i up it reads only what agrees, and below i it writes only its own. -/
theorem passesAgreeFrom_evalOp (c : Config) (e : Word) {p q : Pass} (hpq : PassesAgreeFrom i p q) (k : Fin 4) :
    PassesAgreeFrom i (evalOp c P e p k) (evalOp c Q e q k) := by
  intro j hj
  by_cases hjk : j = k
  · subst hjk
    obtain ⟨hvoice, -⟩ := hpq j hj
    have hinc := phaseInc_of_agreeFrom hPQ hj
    have hop := hPQ.ops j hj
    have hsrc : ∀ src : Fin 4, j < src → p.out[src] = q.out[src] ∧ P.ops[src].level = Q.ops[src].level :=
      fun src hlt => ⟨(hpq src (hj.trans hlt.le)).2, by rw [hPQ.ops src (hj.trans hlt.le)]⟩
    have hmod := gatherMod_congr hPQ.modDepth hsrc e
    simp only [evalOp, advancePhase, selfFeedback, opOutput, hvoice, hinc, hop, hmod, hPQ.ctrl]
    simp
  · have hv : k.val ≠ j.val := fun hval => hjk (Fin.ext hval.symm)
    simpa [evalOp, hv] using hpq j hj

theorem passesAgreeFrom_foldl (c : Config) (e : Word) (order : List (Fin 4)) :
    ∀ {p q : Pass}, PassesAgreeFrom i p q →
      PassesAgreeFrom i (order.foldl (evalOp c P e) p) (order.foldl (evalOp c Q e) q) := by
  induction order with
  | nil => exact fun hpq => hpq
  | cons k rest ih => exact fun hpq => ih (passesAgreeFrom_evalOp hPQ c e hpq k)

/-- What the operators from i up hold after a pass does not depend on what those below i held before it. -/
theorem operatorPass_of_agreeFrom (c : Config) (e : Word) {v w : Vector Voice 4}
    (hvw : ∀ j : Fin 4, i ≤ j → v[j] = w[j]) (j : Fin 4) (hj : i ≤ j) :
    (operatorPass c P e v).1[j] = (operatorPass c Q e w).1[j] :=
  (passesAgreeFrom_foldl hPQ c e evalOrder (p := ⟨v, _⟩) (q := ⟨w, _⟩) (fun k hk => ⟨hvw k hk, rfl⟩) j hj).1

theorem synCompute_voice_of_agreeFrom (c : Config) (n : Nat) (e : Word) {j : Fin 4} (hj : i ≤ j) :
    (synCompute c n P e).voices[j] = (synCompute c n Q e).voices[j] := by
  have hstart : ∀ k : Fin 4, i ≤ k → (opVoices P)[k] = (opVoices Q)[k] := fun k hk => by
    rw [opVoices_get, opVoices_get, hPQ.ops k hk]
  exact operatorPass_of_agreeFrom hPQ c e (operatorPass_of_agreeFrom hPQ c e hstart) j hj

end

/-- Settles O30: each of the two passes keeps the agreement from i up, and the stores read no other operator. -/
theorem lowerOperatorsNeverReachHigher : Obligations.LowerOperatorsNeverReachHigher := by
  refine fun s u i hctrl hdepth hbase hdt hrom hidx hops => ⟨_, _, rfl, rfl, fun j hj => ?_⟩
  have hPQ : AgreeFrom i s.syn u.syn := ⟨hctrl, hdepth, hbase, hdt, hops⟩
  simp only [synStep, synStore_op, hrom, hctrl, hidx, hops j hj, synCompute_voice_of_agreeFrom hPQ _ _ _ hj]

end Sys2Proof.Machine

/-! SUPPORT. The synth commands (spec/44_fm_engine.md): what the resets and a SYN_STEP leave in the registers, the output at
gain 0, and a host's way to an overflow of the DC blocker. -/

namespace Sys2Proof.Machine

/-! ## The frame of a command -/

/-- A command changes no byte outside the registers it writes. -/
theorem bytesSameOutside_exec {i : Instr} {s t : State} (h : exec i s = .next t) : BytesSameOutside (writtenRegs i) s t :=
  bytesSameOutside_of_regs fun _ hr => readReg_exec_of_not_mem h hr

/-- A command takes no pending access and gives the bus no answer. -/
theorem busSame_exec {i : Instr} {s t : State} (h : exec i s = .next t) : BusSame s t := by
  refine ⟨bus_of_exec h, ?_⟩
  cases i <;> cases h <;> rfl

/-- Settles O26: the registers a SYN_STEP writes are the listed ones. -/
theorem synStepFrame : Obligations.SynStepFrame :=
  fun s => ⟨synStep machineConfig s, rfl, bytesSameOutside_exec (i := .synStep) rfl, busSame_exec (i := .synStep) rfl, rfl⟩

/-! ## The synth's state and output by address (R25 to R27) -/

theorem busRead_opPhase (s : State) (i : Fin 4) :
    busRead s (BitVec.ofNat 9 (0x058 + 0x20 * i.val)) = readReg s (.opPhase i) := by
  have haddr : BitVec.ofNat 9 (0x058 + 0x20 * i.val) = regAddr (.opPhase i) := by revert i; decide
  rw [haddr, busRead_regAddr]

theorem busRead_opPrev (s : State) (i : Fin 4) :
    busRead s (BitVec.ofNat 9 (0x05C + 0x20 * i.val)) = readReg s (.opPrev i) := by
  have haddr : BitVec.ofNat 9 (0x05C + 0x20 * i.val) = regAddr (.opPrev i) := by revert i; decide
  rw [haddr, busRead_regAddr]

theorem busRead_dcbX1 (s : State) : busRead s 0x0C0#9 = readReg s .dcbX1 := busRead_regAddr s .dcbX1

theorem busRead_dcbY1 (s : State) : busRead s 0x0C4#9 = readReg s .dcbY1 := busRead_regAddr s .dcbY1

theorem busRead_synOut (s : State) : busRead s 0x01C#9 = readReg s .synOut := busRead_regAddr s .synOut

/-! ## The resets (R201 to R203) -/

/-- A reset command leaves +0.0 in every register it writes. -/
theorem busRead_exec_reset {i : Instr} (hi : i ∈ [Instr.synResetOps, .synResetDcb, .synReset, .fltReset]) {s t : State}
    (h : exec i s = .next t) {r : Reg} (hr : r ∈ writtenRegs i) : busRead t (regAddr r) = zeroF := by
  rw [busRead_regAddr, readReg_exec_reset hi h, if_pos hr]

/-- Settles O19: the registers written are the four phases and previous outputs. -/
theorem synResetOpsZeroesOperators : Obligations.SynResetOpsZeroesOperators := by
  refine ⟨decode_encode .synResetOps, fun s => ⟨{ s with syn := zeroOps s.syn }, rfl, fun i => ?_,
    bytesSameOutside_exec (i := .synResetOps) rfl, busSame_exec (i := .synResetOps) rfl, rfl⟩⟩
  have hphase : .opPhase i ∈ opStateRegs := (mem_opStateRegs_iff _).mpr ⟨i, .inl rfl⟩
  have hprev : .opPrev i ∈ opStateRegs := (mem_opStateRegs_iff _).mpr ⟨i, .inr rfl⟩
  rw [busRead_opPhase, busRead_opPrev, readReg_zeroOps, readReg_zeroOps, if_pos hphase, if_pos hprev]
  exact ⟨rfl, rfl⟩

/-- Settles O20: the registers written are DCB_X1 and DCB_Y1. -/
theorem synResetDcbZeroesBlocker : Obligations.SynResetDcbZeroesBlocker :=
  ⟨decode_encode .synResetDcb, fun s => ⟨{ s with syn := zeroDcb s.syn }, rfl,
    busRead_exec_reset (i := .synResetDcb) (by decide) rfl (r := .dcbX1) (by decide),
    busRead_exec_reset (i := .synResetDcb) (by decide) rfl (r := .dcbY1) (by decide),
    bytesSameOutside_exec (i := .synResetDcb) rfl, busSame_exec (i := .synResetDcb) rfl, rfl⟩⟩

/-- Settles O21: the second reset runs on the state that the first one left. -/
theorem synResetIsBothResets : Obligations.SynResetIsBothResets :=
  ⟨decode_encode .synReset, fun s => ⟨{ s with syn := zeroDcb (zeroOps s.syn) }, { s with syn := zeroOps s.syn },
    rfl, rfl, rfl, fun _ hr => busRead_exec_reset (i := .synReset) (by decide) rfl hr,
    bytesSameOutside_exec (i := .synReset) rfl, busSame_exec (i := .synReset) rfl, rfl⟩⟩

/-! ## The output at gain 0 (R198, R199) -/

theorem isZeroF_iff (x : F32) : isZeroF x = true ↔ mag x = 0 := by simp [isZeroF]

theorem isFinite_of_isZeroF {x : F32} (h : isZeroF x = true) : isFinite x = true :=
  isFinite_of_mag_le (b := zeroF) (by decide) ((isZeroF_iff x).mp h).le

/-- A gain of 0 gives a zero: the product with a finite value, and the zero that stands for any other. -/
theorem isZeroF_outputGain {gain : F32} (hg : isZeroF gain = true) (k : Nat) (y : F32) :
    isZeroF (outputGain k y gain) = true := by
  cases hy : isFinite y with
  | false => exact isZeroF_outputGain_of_not_finite hg hy k
  | true =>
    rw [outputGain_of_finite (.inr hy), isZeroF_iff]
    exact mag_fMul_of_mag_eq_zero hy (isFinite_of_isZeroF hg) (.inr ((isZeroF_iff gain).mp hg))

/-- A zero is no NaN, so SYN_OUT holds it as it is. -/
theorem isZeroF_synOut_of_zero_gain (c : Config) {s : State} (hg : isZeroF s.syn.gain = true) :
    isZeroF (readReg (synStep c s) .synOut) = true := by
  simp only [readReg, synStep, synStore_out, synCompute]
  have hzero := isZeroF_outputGain hg s.freeIdx
  rw [sealNaN_of_not_isNaN (isNaN_of_isFinite (isFinite_of_isZeroF (hzero _)))]
  exact hzero _

/-- Settles O31: the gained value is a zero whether the blocker's output is finite or not. -/
theorem zeroGainSilences : Obligations.ZeroGainSilences := by
  refine fun s hg => ⟨synStep machineConfig s, rfl, ?_⟩
  rw [busRead_synOut]
  exact isZeroF_synOut_of_zero_gain machineConfig hg

/-! ## The sample (R190 to R200) -/

section
variable (c : Config) (s : State)

/-- What a SYN_STEP from s computes. -/
def synStepResult : SynResult := synCompute c s.freeIdx s.syn s.algRom[s.syn.ctrl.alg]

theorem stores_synStep_voice (i : Fin 4) :
    Stores (synStepResult c s).voices[i].phase (readReg (synStep c s) (.opPhase i)) ∧
      Stores (synStepResult c s).voices[i].prev (readReg (synStep c s) (.opPrev i)) := by
  simp only [readReg, synStep, synStore_op]
  exact ⟨stores_sealNaN _ _ _, stores_sealNaN _ _ _⟩

theorem stores_synStep_dcbX1 : Stores (synStepResult c s).dcbX1 (readReg (synStep c s) .dcbX1) := stores_sealNaN _ _ _

theorem stores_synStep_dcbY1 : Stores (synStepResult c s).dcbY1 (readReg (synStep c s) .dcbY1) := stores_sealNaN _ _ _

theorem stores_synStep_synOut : Stores (synStepResult c s).out (readReg (synStep c s) .synOut) := stores_sealNaN _ _ _

end

/-- Settles O25: the registers hold what `synCompute` gives, and its output is the product where the gain is not 0 or the value
is finite, and a zero where the gain is 0. -/
theorem synStepComputesSample : Obligations.SynStepComputesSample := by
  intro s
  refine ⟨synStep machineConfig s, rfl, fun i => ?_, ?_, ?_, fun hfin => ?_, fun hg => ?_⟩
  · rw [busRead_opPhase, busRead_opPrev]
    exact stores_synStep_voice machineConfig s i
  · rw [busRead_dcbX1]
    exact stores_synStep_dcbX1 machineConfig s
  · rw [busRead_dcbY1]
    exact stores_synStep_dcbY1 machineConfig s
  · rw [busRead_synOut, ← outputGain_of_finite hfin s.freeIdx]
    exact stores_synStep_synOut machineConfig s
  · rw [busRead_synOut]
    exact isZeroF_synOut_of_zero_gain machineConfig hg

/-! ## The DC blocker's overflow (log entry 5) -/

/-- With nothing pending, a host's write of a word that sanitizing keeps leads to the state with the word stored. -/
theorem reachable_hostWrite {s : State} (hs : Reachable s) (hbus : s.bus = []) {r : Reg} (hr : hostWritable r) {v : Word}
    (hv : sanitize r v = v) : Reachable (setReg { s with bus := [], answer := none } r v) := by
  have hpending : ({ s with bus := s.bus ++ [hostWrite r v] } : State).bus = .write .w32 (regAddr r) v :: [] := by
    simp [hbus, hostWrite]
  have hstep := step_hostWrite hr hpending
  rw [hv] at hstep
  exact .step _ _ (.issue s [hostWrite r v] hs) hstep

/-- The reset state with algorithm 8, whose ROM entry is not OPEN, and with the blocker's two values the largest finite number in
magnitude, of opposite signs. -/
def overflowState : State :=
  setReg (setReg (setReg State.reset .synCtrl 0x00000008#32) .dcbX1 0xFF7FFFFF#32) .dcbY1 0x7F7FFFFF#32

theorem reachable_overflowState : Reachable overflowState := by
  have hctrl := reachable_hostWrite .reset rfl (r := .synCtrl) (.inl rfl) (v := 0x00000008#32) (by decide)
  have hx1 := reachable_hostWrite hctrl rfl (r := .dcbX1) (.inr rfl) (v := 0xFF7FFFFF#32) (by decide)
  exact reachable_hostWrite hx1 rfl (r := .dcbY1) (.inr rfl) (v := 0x7F7FFFFF#32) (by decide)

/-- R193: with levels of 0 the mix is 0, 0 - x1 is the largest finite number, and its sum with DCB_R·y1 is an infinity. -/
theorem isInf_dcbY1_overflowState : isInf (readReg (synStep machineConfig overflowState) .dcbY1) = true := by
  decide +kernel

/-- Settles O32: three host writes from reset lead to `overflowState`, and as a reachable state it is legal. -/
theorem blockerStateCanOverflow : Obligations.BlockerStateCanOverflow := by
  obtain ⟨hparams, hphases, -⟩ := reachableStatesKeepRegisterInv overflowState reachable_overflowState
  have hfinite : SynthFinite overflowState := ⟨by decide, by decide⟩
  refine ⟨overflowState, synStep machineConfig overflowState, reachable_overflowState, hparams, hphases, hfinite,
    by decide, rfl, ?_⟩
  rw [busRead_dcbY1]
  exact isInf_dcbY1_overflowState

end Sys2Proof.Machine

/-! SUPPORT. The filter's designers and sections (spec/45_filter_designer.md): their structure, what R231 gives of the machine's
own, and what of the designs reaches a FLT_STEP: no damping on path ONE, and nothing but +0.0 from a silent filter. -/

namespace Sys2Proof.Machine

/-! ## The structure of the designers and sections (R221 to R227) -/

/-- Settles O60: `fd1` and `fd2` split on whether the rate is below the threshold, and what is not below it is at or above it, or
one of the two is a NaN. -/
theorem designersAndSectionsHaveSpecStructure : Obligations.DesignersAndSectionsHaveSpecStructure := by
  intro c T fc z ty
  refine ⟨fun hbelow => ?_, fun habove => ?_, fun hbelow => ?_, fun habove => ?_, fun _ _ _ => ⟨rfl, rfl⟩,
    fun _ _ _ => rfl, fun _ _ _ hty => ?_, fun _ _ _ hty => ?_⟩
  · simp only [fd1, hbelow, if_true]
  · simp only [fd1, (fLt_eq_false_iff _ _).mpr habove, Bool.false_eq_true, if_false]
  · simp only [fd2, hbelow, if_true]
  · simp only [fd2, (fLt_eq_false_iff _ _).mpr habove, Bool.false_eq_true, if_false]
  · cases ty with
    | lp | notch | ap => rfl
    | hp | bp => simp at hty
  · cases ty with
    | hp | bp => rfl
    | lp | notch | ap => simp at hty

/-! ## What R231 requires, of the machine's own functions -/

theorem legalPeriod_iff (T : F32) : legalPeriod T = true ↔ fLe 0x35800000#32 T = true ∧ fLe T 0x3F800000#32 = true :=
  Bool.and_eq_true_iff

theorem legalCutoff_iff (fc : F32) :
    legalCutoff fc = true ↔ fLe 0x41A00000#32 fc = true ∧ fLe fc 0x469C4000#32 = true := Bool.and_eq_true_iff

theorem legalDamping_iff (zeta : F32) :
    legalDamping zeta = true ↔ fLe 0x3C23D70A#32 zeta = true ∧ fLe zeta 0x3F34FDF4#32 = true := Bool.and_eq_true_iff

theorem legalSample_iff (x : F32) :
    legalSample x = true ↔ fLe 0xC9800000#32 x = true ∧ fLe x 0x49800000#32 = true := Bool.and_eq_true_iff

/-- R231 property 3 of the one-pole sections, with both zeros +0.0. -/
theorem sec1_zeroF {f : FilterParts} (hf : FilterContract f) {T fc : F32} (hT : legalPeriod T = true)
    (hc : legalCutoff fc = true) (ty : FilterType) : sec1 f ty zeroF zeroF (fd1 f T fc) = ⟨zeroF, zeroF⟩ := by
  obtain ⟨-, ⟨hzero, -⟩, -⟩ := hf
  exact (hzero T fc ty hT hc).1

/-- R231 property 3 of the two-pole sections, with all zeros +0.0. -/
theorem sec2_zeroF {f : FilterParts} (hf : FilterContract f) {T fc zeta : F32} (hT : legalPeriod T = true)
    (hc : legalCutoff fc = true) (hz : legalDamping zeta = true) (ty : FilterType) :
    sec2 f ty ⟨zeroF, zeroF⟩ zeroF (fd2 f T fc zeta ty) = ⟨⟨zeroF, zeroF⟩, zeroF⟩ := by
  obtain ⟨-, ⟨-, hzero⟩, -⟩ := hf
  exact (hzero T fc zeta ty hT hc hz).1

/-- Settles O43: the type of the machine's filter says that it meets R231, and the legal values are the stated ranges. -/
theorem filterFunctionsMeetRequirements : Obligations.FilterFunctionsMeetRequirements := by
  obtain ⟨⟨hfd1, hfd2, -⟩, -, hdc, htone, hcascade⟩ := machineFilter_meets
  refine ⟨fun T fc hTlo hThi hclo hchi => ?_, fun fc hclo hchi => hdc fc ((legalCutoff_iff fc).mpr ⟨hclo, hchi⟩),
    fun z hzlo hzhi => ?_⟩
  · have hT := (legalPeriod_iff T).mpr ⟨hTlo, hThi⟩
    have hc := (legalCutoff_iff fc).mpr ⟨hclo, hchi⟩
    obtain ⟨hw, hc0, hc1⟩ := hfd1 T fc hT hc
    refine ⟨hw, hc0, hc1, fun ty s x hs hxlo hxhi => ?_, sec1_zeroF machineFilter_meets hT hc, fun z ty hzlo hzhi => ?_⟩
    · exact isFinite_sec1 machineFilter_meets hT hc hs ((legalSample_iff x).mpr ⟨hxlo, hxhi⟩) ty
    · have hz := (legalDamping_iff z).mpr ⟨hzlo, hzhi⟩
      obtain ⟨hk0, hk1, hk2, hk3⟩ := hfd2 T fc z ty hT hc hz
      exact ⟨hk0, hk1, hk2, hk3,
        fun s x h1 h2 hxlo hxhi => isFinite_sec2 machineFilter_meets hT hc hz h1 h2 ((legalSample_iff x).mpr ⟨hxlo, hxhi⟩) ty,
        sec2_zeroF machineFilter_meets hT hc hz ty⟩
  · have hz := (legalDamping_iff z).mpr ⟨hzlo, hzhi⟩
    exact ⟨htone z hz, hcascade z hz⟩

/-! ## Damping in a one-pole mode (R229) -/

/-- A mode change reads the modes alone. -/
theorem modeChange_withDamp (P : Filter) (d : F32) : modeChange { P with damp := d } = { modeChange P with damp := d } := by
  simp only [modeChange]
  split <;> rfl

/-- Path ONE does not read the damping. -/
theorem fltCompute_withDamp {c : Config} {P : Filter} (hone : (c.modeTable P.mode).1 = .one) (k : Nat) (d : F32) :
    fltCompute c k { P with damp := d } = { fltCompute c k P with damp := d } := by
  simp only [fltCompute, hone, modeChange_withDamp]
  rfl

theorem fltStep_withDamp {c : Config} {s : State} (hone : (c.modeTable s.flt.mode).1 = .one) (d : F32) :
    let t := fltStep c s
    fltStep c { s with flt := { s.flt with damp := d } } = { t with flt := { t.flt with damp := d } } :=
  congrArg (fun Q => { s with flt := Q, freeIdx := s.freeIdx + 1 }) (fltCompute_withDamp hone s.freeIdx d)

/-- Settles O40: the step computes the same state but for the damping. -/
theorem onePoleIgnoresDamping : Obligations.OnePoleIgnoresDamping :=
  fun s d hone => ⟨fltStep machineConfig s, rfl, congrArg Host.Outcome.next (fltStep_withDamp hone d)⟩

/-! ## A silent filter (R231 property 3, R258) -/

theorem signBit_of_zeroF_fLt {x : F32} (h : fLt zeroF x = true) : signBit x = false := by
  have hz : sval zeroF = 0 := by decide
  simp only [fLt, Bool.and_eq_true, decide_eq_true_eq, hz] at h
  obtain ⟨-, hpos⟩ := h
  by_contra hs
  rw [sval_of_signBit (by simpa using hs)] at hpos
  omega

/-- The product of +0.0 and a finite number with a clear sign bit is +0.0. -/
theorem zeroF_fMul {x : F32} (hx : isFinite x = true) (hs : signBit x = false) : fMul zeroF x = zeroF :=
  eq_zeroF_of_mag (mag_zeroF_fMul hx) (by rw [signBit_fMul (by decide) hx, hs]; rfl)

/-- R254: a legal drive leaves +0.0, since its gain 1 + 9·drive is finite and not negative. -/
theorem driveStage_zeroF {drive : F32} (hd : inRange unitRange drive = true) : driveStage zeroF drive = zeroF := by
  unfold driveStage
  split
  case isFalse => rfl
  case isTrue hpos =>
    have wdrive : Within 0 drive := within_of_inRange (by decide) (by decide) hd
    have wprod : Within 4 (fMul nineF drive) := within_fMul (by decide : Within 4 nineF) wdrive
    have wgain : Within 5 (fAdd oneF (fMul nineF drive)) := within_fAdd (by decide : Within 0 oneF) wprod
    have sprod : signBit (fMul nineF drive) = false := by
      rw [signBit_fMul (by decide) wdrive.isFinite, signBit_of_zeroF_fLt hpos]
      rfl
    have hsum : 0 ≤ sval oneF + sval (fMul nineF drive) := by
      rw [sval_of_not_signBit (by decide), sval_of_not_signBit sprod]
      omega
    have sgain : signBit (fAdd oneF (fMul nineF drive)) = false :=
      (fAdd_of_nonneg (by decide) wprod.isFinite hsum rfl).2
    rw [zeroF_fMul wgain.isFinite sgain]
    decide

@[simp] theorem sealNaN_zeroF (k : Nat) (r : Reg) : sealNaN k r zeroF = zeroF := sealNaN_of_not_isNaN (by decide) k r

@[simp] theorem flushDenormal_zeroF : flushDenormal zeroF = zeroF := by decide

section
variable {c : Config} (hcontract : FilterContract c.toFilterParts) {P : Filter} (hparams : FilterParamsLegal P)
include hcontract hparams

theorem runOne_zeroSections (k : Nat) (ty : FilterType) :
    runOne c k ty zeroF (zeroSections P) = { zeroSections P with out := zeroF } := by
  have hsec := sec1_zeroF hcontract hparams.period hparams.cutoff ty
  simp [runOne, zeroSections, hsec]

theorem runTwo_zeroSections (k : Nat) (ty : FilterType) :
    runTwo c k ty zeroF (zeroSections P) = { zeroSections P with out := zeroF } := by
  have hsec := sec2_zeroF hcontract hparams.period hparams.cutoff hparams.damping ty
  simp [runTwo, zeroSections, hsec]

/-- Section A gives +0.0, which is in the range R231 speaks of, so section B gives it too. -/
theorem runCas_zeroSections (k : Nat) (ty : FilterType) :
    runCas c k ty zeroF (zeroSections P) = { zeroSections P with out := zeroF } := by
  have hsec := sec2_zeroF hcontract hparams.period hparams.cutoff hparams.damping ty
  simp [runCas, zeroSections, hsec, sectionB_of_legalSample (by decide : legalSample zeroF = true)]

end

theorem modeChange_zeroSections (P : Filter) :
    modeChange (zeroSections P) = zeroSections { P with lastMode := P.mode } := by
  unfold modeChange
  split
  · next h => simp only [zeroSections, show P.mode = P.lastMode from h]
  · rfl

/-- On every path +0.0 from zeroed sections leaves them zeroed and gives +0.0, for parts that meet R231. -/
theorem fltCompute_zeroSections {c : Config} (hcontract : FilterContract c.toFilterParts) {P : Filter}
    (hparams : FilterParamsLegal P) (hinput : P.input = zeroF) (hdrive : inRange unitRange P.drive = true) (k : Nat) :
    fltCompute c k (zeroSections P) = { zeroSections P with lastMode := P.mode, out := zeroF } := by
  have hp : FilterParamsLegal { P with lastMode := P.mode } := ⟨hparams.period, hparams.cutoff, hparams.damping⟩
  have hx : driveStage (zeroSections P).input (zeroSections P).drive = zeroF := by
    rw [show (zeroSections P).input = zeroF from hinput]
    exact driveStage_zeroF hdrive
  simp only [fltCompute, hx, modeChange_zeroSections]
  split
  · exact runOne_zeroSections hcontract hp k _
  · exact runTwo_zeroSections hcontract hp k _
  · exact runCas_zeroSections hcontract hp k _

theorem filterParamsLegal_of_paramsLegal {s : State} (hs : ParamsLegal s) : FilterParamsLegal s.flt :=
  ⟨hs .fltDt _ rfl, hs .fltCutoff _ rfl, hs .fltDamp _ rfl⟩

/-- R230: zeroing sections that hold +0.0 changes nothing. -/
theorem zeroSections_eq_self {P : Filter} (h1 : P.f1S = zeroF) (ha1 : P.f2aS1 = zeroF) (ha2 : P.f2aS2 = zeroF)
    (hb1 : P.f2bS1 = zeroF) (hb2 : P.f2bS2 = zeroF) : zeroSections P = P := by
  cases P
  simp_all only [zeroSections]

/-- Settles O41: the sections are zeroed already, so the step leaves them so, and its output is +0.0. -/
theorem zeroInputStaysZero : Obligations.ZeroInputStaysZero := by
  intro s hparams hsections hinput
  have hzero : zeroSections s.flt = s.flt :=
    zeroSections_eq_self (hsections .f1S (by decide)) (hsections .f2aS1 (by decide)) (hsections .f2aS2 (by decide))
      (hsections .f2bS1 (by decide)) (hsections .f2bS2 (by decide))
  have hflt : (fltStep machineConfig s).flt = { zeroSections s.flt with lastMode := s.flt.mode, out := zeroF } := by
    rw [← fltCompute_zeroSections (c := machineConfig) machineFilter_meets (filterParamsLegal_of_paramsLegal hparams) hinput
      (hparams .fltDrive _ rfl) s.freeIdx, hzero]
    rfl
  refine ⟨fltStep machineConfig s, rfl, fun r hr => ?_, ?_⟩
  · simp only [sectionRegs, List.mem_cons, List.not_mem_nil, or_false] at hr
    rcases hr with rfl | rfl | rfl | rfl | rfl <;> simp only [readReg, hflt] <;> rfl
  · rw [show (0x118#9 : Addr) = regAddr .fltOut from rfl, busRead_regAddr]
    exact congrArg Filter.out hflt

end Sys2Proof.Machine

/-! SUPPORT. The filter engine (spec/46_filter_engine.md): FLT_STEP on each of the three paths, the mode change before it, the
frames of the filter's two commands, and that neither engine's commands touch the other's registers. -/

namespace Sys2Proof.Machine

/-! ## The filter's registers by address (R28 to R31) -/

theorem busRead_fltCtrl (s : State) : busRead s 0x100#9 = modeWord s.flt.mode := busRead_regAddr s .fltCtrl

theorem busRead_fltOut (s : State) : busRead s 0x118#9 = s.flt.out := busRead_regAddr s .fltOut

theorem busRead_fltLastMode (s : State) : busRead s 0x11C#9 = modeWord s.flt.lastMode := busRead_regAddr s .fltLastMode

theorem busRead_f1S (s : State) : busRead s 0x120#9 = s.flt.f1S := busRead_regAddr s .f1S

theorem busRead_f2aS1 (s : State) : busRead s 0x124#9 = s.flt.f2aS1 := busRead_regAddr s .f2aS1

theorem busRead_f2aS2 (s : State) : busRead s 0x128#9 = s.flt.f2aS2 := busRead_regAddr s .f2aS2

theorem busRead_f2bS1 (s : State) : busRead s 0x12C#9 = s.flt.f2bS1 := busRead_regAddr s .f2bS1

theorem busRead_f2bS2 (s : State) : busRead s 0x130#9 = s.flt.f2bS2 := busRead_regAddr s .f2bS2

/-! ## The frames (R258, R259, R262) -/

/-- Settles O22: the registers written are the five section states. -/
theorem fltResetZeroesSections : Obligations.FltResetZeroesSections :=
  ⟨decode_encode .fltReset, fun s => ⟨{ s with flt := zeroSections s.flt }, rfl,
    fun _ hr => busRead_exec_reset (i := .fltReset) (by decide) rfl hr,
    bytesSameOutside_exec (i := .fltReset) rfl, busSame_exec (i := .fltReset) rfl, rfl⟩⟩

/-- Settles O36: the registers a FLT_STEP writes are the listed ones. -/
theorem fltStepFrame : Obligations.FltStepFrame :=
  fun s => ⟨fltStep machineConfig s, rfl, bytesSameOutside_exec (i := .fltStep) rfl, busSame_exec (i := .fltStep) rfl, rfl⟩

/-- Settles O53: each command's arm is a function of its own engine's registers, of the free index and, for the synth, of the
ROM. -/
theorem enginesShareNoState : Obligations.EnginesShareNoState := by
  intro s F P rom st
  refine ⟨fun i hi => ?_, fun i hi => ?_⟩
  · cases i with
    | synStep => exact ⟨synStep machineConfig s, rfl, rfl⟩
    | synResetOps | synResetDcb | synReset => exact ⟨_, rfl, rfl⟩
    | nop | fltStep | fltReset => simp at hi
  · cases i with
    | fltStep => exact ⟨fltStep machineConfig s, rfl, rfl⟩
    | fltReset => exact ⟨_, rfl, rfl⟩
    | nop | synStep | synResetOps | synResetDcb | synReset => simp at hi

/-! ## The mode change (R256) -/

theorem afterModeChange_eq_modeChange (P : Filter) : afterModeChange P = modeChange P := rfl

theorem drivenSample_eq_driveStage (P : Filter) : drivenSample P = driveStage P.input P.drive := rfl

theorem modeChange_of_mode_eq {P : Filter} (h : P.mode = P.lastMode) : modeChange P = P := if_pos h

theorem modeChange_of_mode_ne {P : Filter} (h : P.mode ≠ P.lastMode) :
    modeChange P = { zeroSections P with lastMode := P.mode } := if_neg h

@[simp] theorem modeChange_modeChange (P : Filter) : modeChange (modeChange P) = modeChange P :=
  modeChange_of_mode_eq (by rw [modeChange_mode, modeChange_lastMode])

/-- The step sees the filter's registers only as the mode change leaves them. -/
theorem fltCompute_modeChange (c : Config) (k : Nat) (P : Filter) : fltCompute c k (modeChange P) = fltCompute c k P := by
  simp only [fltCompute, modeChange_mode, modeChange_input, modeChange_drive, modeChange_modeChange]

theorem fltStep_modeChange (c : Config) (s : State) : fltStep c { s with flt := modeChange s.flt } = fltStep c s :=
  congrArg (fun Q => { s with flt := Q, freeIdx := s.freeIdx + 1 }) (fltCompute_modeChange c s.freeIdx s.flt)

theorem fltStep_lastMode (c : Config) (s : State) : (fltStep c s).flt.lastMode = s.flt.mode := by
  simp only [fltStep, fltCompute]
  split <;> exact modeChange_lastMode s.flt

theorem busRead_fltLastMode_fltStep (c : Config) (s : State) : busRead (fltStep c s) 0x11C#9 = busRead s 0x100#9 := by
  rw [busRead_fltLastMode, busRead_fltCtrl, fltStep_lastMode]

theorem setReg_sectionRegs_zeroF (s : State) :
    setReg (setReg (setReg (setReg (setReg s .f1S 0x00000000#32) .f2aS1 0x00000000#32) .f2aS2 0x00000000#32)
      .f2bS1 0x00000000#32) .f2bS2 0x00000000#32 = { s with flt := zeroSections s.flt } := by
  simp only [setReg, zeroSections, zeroF]

/-- Settles O37: the state described is the one the mode change leaves. -/
theorem modeChangeStartsFromZero : Obligations.ModeChangeStartsFromZero := by
  intro s hne
  refine ⟨fltStep machineConfig s, rfl, busRead_fltLastMode_fltStep machineConfig s, ?_⟩
  rw [setReg_sectionRegs_zeroF, ← fltStep_modeChange, modeChange_of_mode_ne hne]
  rfl

/-! ## The three paths (R254, R257, R258) -/

section
variable {c : Config} {s : State} {ty : FilterType}

theorem fltStep_flt_of_one (h : c.modeTable s.flt.mode = (.one, ty)) :
    (fltStep c s).flt = runOne c s.freeIdx ty (drivenSample s.flt) (afterModeChange s.flt) := by
  simp only [fltStep, fltCompute, h, drivenSample_eq_driveStage, afterModeChange_eq_modeChange]

theorem fltStep_flt_of_two (h : c.modeTable s.flt.mode = (.two, ty)) :
    (fltStep c s).flt = runTwo c s.freeIdx ty (drivenSample s.flt) (afterModeChange s.flt) := by
  simp only [fltStep, fltCompute, h, drivenSample_eq_driveStage, afterModeChange_eq_modeChange]

theorem fltStep_flt_of_cas (h : c.modeTable s.flt.mode = (.cas, ty)) :
    (fltStep c s).flt = runCas c s.freeIdx ty (drivenSample s.flt) (afterModeChange s.flt) := by
  simp only [fltStep, fltCompute, h, drivenSample_eq_driveStage, afterModeChange_eq_modeChange]

end

/-- The mode change leaves what `FD1` reads. -/
theorem fd1_afterModeChange (f : FilterParts) (P : Filter) :
    fd1 f (afterModeChange P).dt (afterModeChange P).cutoff = fd1 f P.dt P.cutoff := by
  rw [afterModeChange_eq_modeChange, modeChange_dt, modeChange_cutoff]

/-- The mode change leaves what `FD2` reads. -/
theorem fd2_afterModeChange (f : FilterParts) (P : Filter) (ty : FilterType) :
    fd2 f (afterModeChange P).dt (afterModeChange P).cutoff (afterModeChange P).damp ty = fd2 f P.dt P.cutoff P.damp ty := by
  rw [afterModeChange_eq_modeChange, modeChange_dt, modeChange_cutoff, modeChange_damp]

/-- Settles O33: `runOne` stores the one-pole section's results and keeps the other sections. -/
theorem fltStepOnePath : Obligations.FltStepOnePath := by
  intro s ty hpath Q r
  refine ⟨fltStep machineConfig s, rfl, ?_⟩
  simp only [busRead_f1S, busRead_fltOut, busRead_f2aS1, busRead_f2aS2, busRead_f2bS1, busRead_f2bS2,
    fltStep_flt_of_one hpath, runOne, fd1_afterModeChange]
  exact ⟨stores_sealNaN _ _ _, stores_sealNaN _ _ _, rfl, rfl, rfl, rfl, busRead_fltLastMode_fltStep machineConfig s⟩

/-- Settles O34: `runTwo` stores section A's results and keeps the other sections. -/
theorem fltStepTwoPath : Obligations.FltStepTwoPath := by
  intro s ty hpath Q r
  refine ⟨fltStep machineConfig s, rfl, ?_⟩
  simp only [busRead_f1S, busRead_fltOut, busRead_f2aS1, busRead_f2aS2, busRead_f2bS1, busRead_f2bS2,
    fltStep_flt_of_two hpath, runTwo, fd2_afterModeChange]
  exact ⟨stores_sealNaN _ _ _, stores_sealNaN _ _ _, stores_sealNaN _ _ _, rfl, rfl, rfl,
    busRead_fltLastMode_fltStep machineConfig s⟩

/-- Each of section B's results is that of `SEC2` where its input is in range or that result is finite. -/
theorem sectionB_eq_sec2 (f : FilterParts) (ty : FilterType) (s : Pair) (x : F32) (k : Coef2) :
    let b := sectionB f ty s x k
    let r := sec2 f ty s x k
    (legalSample x = true ∨ isFinite r.s.s1 = true → b.s.s1 = r.s.s1) ∧
      (legalSample x = true ∨ isFinite r.s.s2 = true → b.s.s2 = r.s.s2) ∧
      (legalSample x = true ∨ isFinite r.y = true → b.y = r.y) := by
  cases hx : legalSample x with
  | true => simp only [sectionB_of_legalSample hx, implies_true, and_self]
  | false => simpa using (sectionB_of_beyond hx f ty s k).2

/-- Settles O35: `runCas` stores both sections' results. Section B's are those of `SEC2`, beyond R231's range where they are
finite, and all that is stored there is finite. -/
theorem fltStepCascadePath : Obligations.FltStepCascadePath := by
  intro s ty hpath Q k a b
  obtain ⟨hs1, hs2, hy⟩ := sectionB_eq_sec2 machineFilter ty ⟨Q.f2bS1, Q.f2bS2⟩ a.y k
  refine ⟨fltStep machineConfig s, rfl, ?_⟩
  simp only [busRead_f1S, busRead_fltOut, busRead_f2aS1, busRead_f2aS2, busRead_f2bS1, busRead_f2bS2,
    fltStep_flt_of_cas hpath, runCas, fd2_afterModeChange]
  refine ⟨stores_sealNaN _ _ _, stores_sealNaN _ _ _, fun h => ?_, fun h => ?_, fun h => ?_, fun hbeyond => ?_, rfl,
    busRead_fltLastMode_fltStep machineConfig s⟩
  · rw [← hs1 h]; exact stores_sealNaN _ _ _
  · rw [← hs2 h]; exact stores_sealNaN _ _ _
  · rw [← hy h]; exact stores_sealNaN _ _ _
  · obtain ⟨⟨hfin1, hfin2, hfiny⟩, -⟩ := sectionB_of_beyond hbeyond machineFilter ty ⟨Q.f2bS1, Q.f2bS2⟩ k
    exact ⟨isFinite_sealNaN (isFinite_flushDenormal hfin1) _ _, isFinite_sealNaN (isFinite_flushDenormal hfin2) _ _,
      isFinite_sealNaN hfiny _ _⟩

/-- Settles O38: without a mode change each path keeps the filter's registers but for the sections it runs. -/
theorem inactiveSectionsKeepState : Obligations.InactiveSectionsKeepState := by
  intro s hmode
  have hkeep : afterModeChange s.flt = s.flt := modeChange_of_mode_eq hmode
  refine ⟨fltStep machineConfig s, rfl, fun hone => ?_, fun htwo => ?_, fun hcas => ?_⟩
  · simp [readReg, fltStep_flt_of_one (Prod.ext hone rfl), hkeep, runOne]
  · simp [readReg, fltStep_flt_of_two (Prod.ext htwo rfl), hkeep, runTwo]
  · simp [readReg, fltStep_flt_of_cas (Prod.ext hcas rfl), hkeep, runCas]

end Sys2Proof.Machine

/-! SUPPORT. The host contract (spec/47_host_contract.md): the pitch conversions at 0 V and at 1 V, whatever the free `Fexp2`
is, and the resonance curve by its contract. -/

namespace Sys2Proof

theorem fMul_comm_of_finite {x y : F32} (hx : isFinite x = true) (hy : isFinite y = true) : fMul x y = fMul y x := by
  rw [fMul_of_finite hx hy, fMul_of_finite hy hx, bne_comm, Nat.mul_comm]

namespace Machine

/-! ## The pitch conversions (R282 to R284) -/

/-- R282 at 0, of either sign: the multiplier is 1.0. -/
theorem voctToMult_of_isZeroF {v : F32} (hv : isZeroF v = true) : voctToMult machineConfig v = oneF := if_pos hv

/-- R282 at 1: the multiplier is 2.0. -/
theorem voctToMult_oneF : voctToMult machineConfig oneF = twoF := by
  change fexp2Of Config.fexp2Raw oneF = twoF
  rw [fexp2Of, if_neg (by decide), if_pos rfl, twoF]

theorem voctToFreq_eq_fMul_voctToMult (c : Config) (f0 v : F32) : voctToFreq c f0 v = fMul f0 (voctToMult c v) := rfl

/-- At 0 V the conversion gives its reference frequency, whichever finite one it is. -/
theorem voctToFreq_of_isZeroF {f0 v : F32} (hf : isFinite f0 = true) (hv : isZeroF v = true) :
    voctToFreq machineConfig f0 v = f0 := by
  rw [voctToFreq_eq_fMul_voctToMult, voctToMult_of_isZeroF hv, fMul_comm_of_finite hf (by decide), oneF_fMul hf]

/-- At 1 V it gives twice its reference frequency. -/
theorem voctToFreq_oneF (f0 : F32) : voctToFreq machineConfig f0 oneF = fMul f0 twoF := by
  rw [voctToFreq_eq_fMul_voctToMult, voctToMult_oneF]

/-- Settles O58: `Fexp2` is shaped to R282 at 0 and at 1, the frequencies follow from it, and the machine's curve meets R287. -/
theorem hostConversionsAtFixedPoints : Obligations.HostConversionsAtFixedPoints := by
  obtain ⟨hcurveZero, hcurveOne, hnonLinear⟩ := machineResCurve_meets
  have hdoubleSyn : fMul f0Syn twoF = 0x4402D013#32 := by decide
  have hdoubleFlt : fMul f0Flt twoF = 0x4402D0A4#32 := by decide
  exact ⟨voctToMult_of_isZeroF (by decide), voctToMult_oneF,
    voctToFreq_of_isZeroF (by decide) (by decide), (voctToFreq_oneF f0Syn).trans hdoubleSyn,
    voctToFreq_of_isZeroF (by decide) (by decide), (voctToFreq_oneF f0Flt).trans hdoubleFlt,
    hcurveZero _ (by decide), hcurveOne, hnonLinear⟩

end Machine
end Sys2Proof

/-! SUPPORT. Exceptions and reset: every step answers a next state, what one step can leave in STATUS, and the reset values
register by register. -/

namespace Sys2Proof.Machine

/-! ## Every step answers a next state (R300, R306) -/

theorem exec_answers_next (i : Instr) (s : State) : ∃ t, exec i s = .next t := by
  cases i <;> exact ⟨_, rfl⟩

theorem busWrite_answers_next (a : Addr) (v : Word) (s : State) : ∃ t, busWrite a v s = .next t := by
  obtain ⟨i, -, -, hw⟩ | ⟨e, -, -, hw⟩ | ⟨r, -, -, hw⟩ | ⟨-, hw⟩ := busWrite_cases a v s
  · rw [hw]; exact exec_answers_next i s
  all_goals exact ⟨_, hw⟩

theorem perform_answers_next (e : HostEvent) (s : State) : ∃ t, perform e s = .next t := by
  obtain ⟨a, -, -, hp⟩ | ⟨w, a, -, -, hp⟩ | ⟨a, v, -, -, hp⟩ | ⟨w, a, v, -, -, hp⟩ | ⟨-, hp⟩ := perform_cases e s
  case inr.inr.inl => rw [hp]; exact busWrite_answers_next a v _
  all_goals exact ⟨_, hp⟩

theorem step_answers_next (s : State) : ∃ t, step s = .next t := by
  obtain ⟨-, hs⟩ | ⟨e, rest, -, hs⟩ := step_cases s
  · exact ⟨s, hs⟩
  · rw [hs]; exact perform_answers_next e _

/-- Settles O49, by induction on the number of steps. -/
theorem blockNeverStops : Obligations.BlockNeverStops := by
  intro n
  induction n with
  | zero => exact fun s => ⟨s, rfl⟩
  | succ n ih =>
    intro s
    obtain ⟨u, hu⟩ := step_answers_next s
    obtain ⟨t, ht⟩ := ih u
    refine ⟨t, ?_⟩
    simp only [Host.Core.run, core, hu]
    exact ht

/-- Settles O59: the stepped instance alone is replaced, and where there is none the system stays. -/
theorem instancesAreIndependent : Obligations.InstancesAreIndependent := by
  intro k j sys
  cases hk : sys[k]? with
  | none => exact ⟨sys, by simp only [stepInstance, hk], rfl, fun _ => rfl⟩
  | some x =>
    obtain ⟨t, ht⟩ := step_answers_next x.block
    exact ⟨sys.set k { x with block := t }, by simp only [stepInstance, hk, ht], List.length_set,
      fun hjk => List.getElem?_set_ne hjk.symm⟩

/-! ## STATUS over one step (R303, R307) -/

theorem illegalAccess_of_accessWellFormed {w : Width} {a : Addr} (h : accessWellFormed w a = false) : IllegalAccess w a := by
  simpa only [IllegalAccess, accessWellFormed, aligned, Bool.and_eq_false_iff, beq_eq_false_iff_ne] using h

theorem status_of_exec {i : Instr} {s t : State} (h : exec i s = .next t) : t.status = s.status := by
  cases i <;> cases h <;> rfl

/-- What an aligned write can leave in STATUS. -/
theorem status_of_busWrite {a : Addr} {v : Word} {s t : State} (h : busWrite a v s = .next t) :
    t.status = s.status ∨
      (a = 0x1F8#9 ∧ (∀ i, decode v ≠ .legal i) ∧ t.status = s.status.setErrCmd) ∨
      (a = 0x1FC#9 ∧ t.status = s.status.writeOneToClear v) := by
  obtain ⟨i, -, -, hw⟩ | ⟨e, ha, hd, hw⟩ | ⟨r, -, ha, hw⟩ | ⟨-, hw⟩ := busWrite_cases a v s <;> rw [hw] at h
  · exact .inl (status_of_exec h)
  · cases h
    exact .inr (.inl ⟨ha, by simp [hd], rfl⟩)
  · cases h
    obtain ⟨-, hv⟩ | ⟨rfl, hv⟩ | ⟨-, -, hv⟩ := hostWriteReg_cases s r v <;> rw [hv]
    · exact .inl (setReg_status s r _)
    · exact .inr (.inr ⟨ha, rfl⟩)
    · exact .inl rfl
  · cases h
    exact .inl rfl

/-- What one step can leave in STATUS: the bits as they were, ERR_CMD set by an illegal CMD write, ERR_BUS set by an illegal
access, the bits a STATUS write leaves, or the reset value. -/
theorem status_of_step {s t : State} {e : HostEvent} {rest : List HostEvent} (hbus : s.bus = e :: rest)
    (h : step s = .next t) :
    t.status = s.status ∨
      (∃ w, e = .write .w32 0x1F8#9 w ∧ (∀ i, decode w ≠ .legal i) ∧ t.status = s.status.setErrCmd) ∨
      (∃ w a, IllegalAccess w a ∧ (e = .read w a ∨ ∃ v, e = .write w a v) ∧ t.status = s.status.setErrBus) ∨
      (∃ v, e = .write .w32 0x1FC#9 v ∧ t.status = s.status.writeOneToClear v) ∨
      (e = .reset ∧ t.status = State.reset.status) := by
  rw [step_of_pending hbus] at h
  obtain ⟨a, -, -, hp⟩ | ⟨w, a, he, hwf, hp⟩ | ⟨a, v, rfl, -, hp⟩ | ⟨w, a, v, he, hwf, hp⟩ | ⟨he, hp⟩ :=
    perform_cases e { s with bus := rest } <;> rw [hp] at h
  · cases h
    exact .inl rfl
  · cases h
    exact .inr (.inr (.inl ⟨w, a, illegalAccess_of_accessWellFormed hwf, .inl he, rfl⟩))
  · obtain hst | ⟨rfl, hd, hst⟩ | ⟨rfl, hst⟩ := status_of_busWrite h
    · exact .inl hst
    · exact .inr (.inl ⟨v, rfl, hd, hst⟩)
    · exact .inr (.inr (.inr (.inl ⟨v, rfl, hst⟩)))
  · cases h
    exact .inr (.inr (.inl ⟨w, a, illegalAccess_of_accessWellFormed hwf, .inr ⟨v, he⟩, rfl⟩))
  · cases h
    exact .inr (.inr (.inr (.inr ⟨he, rfl⟩)))

/-- Settles O50: each thing that one step can leave in STATUS changes only the bit its event accounts for. -/
theorem statusBitsHaveOneCause : Obligations.StatusBitsHaveOneCause := by
  intro s t e rest hbus h
  obtain hst | ⟨w, he, hd, hst⟩ | ⟨w, a, hillegal, he, hst⟩ | ⟨v, he, hst⟩ | ⟨he, hst⟩ := status_of_step hbus h <;>
    simp only [hst]
  · simp +contextual
  · exact ⟨fun _ _ => ⟨w, he, hd⟩, by simp, by simp +contextual, by simp +contextual⟩
  · exact ⟨by simp +contextual, by simp +contextual, fun _ _ => ⟨w, a, hillegal, he⟩, by simp⟩
  · exact ⟨by simp +contextual, fun h1 h0 => .inr ⟨v, he, by simpa [h1] using h0⟩, by simp +contextual,
      fun h1 h0 => .inr ⟨v, he, by simpa [h1] using h0⟩⟩
  · exact ⟨by simp [State.reset], fun _ _ => .inl he, by simp [State.reset], fun _ _ => .inl he⟩

/-! ## The reset values (R330) -/

/-- The registers, ROM apart, whose reset value is not 0 (spec/10_state.md section 7). -/
def nonzeroResetRegs : List Reg :=
  [.synDt, .opCoarse 0, .opFine 0, .opCoarse 1, .opFine 1, .opCoarse 2, .opFine 2, .opCoarse 3, .opFine 3, .fltCutoff,
    .fltDamp, .fltDt]

/-- Section 7's nonzero reset values, with their addresses, are those the registers hold after reset. -/
theorem nonzeroResets_eq_map : nonzeroResets = nonzeroResetRegs.map (fun r => (regAddr r, readReg State.reset r)) := by
  decide

theorem readReg_reset_algRom (a : Fin 11) : readReg State.reset (.algRom a) = machineConfig.algTable a := by
  simp [readReg, State.reset]

theorem readReg_reset_of_not_mem {r : Reg} (hr : r ∉ nonzeroResetRegs) (hrom : regKind r ≠ .rom) :
    readReg State.reset r = 0#32 := by
  cases r with
  | algRom a => exact absurd rfl hrom
  | opCoarse i | opFine i | opLevel i | opWarp i | opFold i | opFeedback i | opPhase i | opPrev i =>
    revert i
    decide
  | _ =>
    revert hr
    decide

theorem readReg_hardwareReset (s : State) (r : Reg) : readReg (hardwareReset s) r = readReg State.reset r := by
  cases r <;> rfl

theorem busRead_congr {s t : State} (h : ∀ r, readReg t r = readReg s r) (a : Addr) : busRead t a = busRead s a := by
  simp only [busRead, h]

/-- Settles O16: a bus read of the reset state is 0 or a register's reset value, and the reset input leaves those values. -/
theorem resetRegisterValues : Obligations.ResetRegisterValues := by
  refine ⟨fun p hp => ?_, fun a => ?_, fun a _ hne hrange => ?_, fun s rest hbus => ?_⟩
  · rw [nonzeroResets_eq_map] at hp
    obtain ⟨r, -, rfl⟩ := List.mem_map.mp hp
    exact busRead_regAddr State.reset r
  · exact (busRead_regAddr State.reset (.algRom a)).trans (readReg_reset_algRom a)
  · obtain ⟨r, rfl, hread⟩ | ⟨-, hread⟩ := busRead_cases State.reset a
    · rw [hread]
      refine readReg_reset_of_not_mem (fun hr => ?_) (fun hrom => ?_)
      · exact hne _ (nonzeroResets_eq_map ▸ List.mem_map_of_mem hr) rfl
      · cases r with
        | algRom k => simp only [regAddr, BitVec.toNat_ofNat] at hrange; omega
        | _ => cases hrom
    · exact hread
  · exact ⟨hardwareReset { s with bus := rest }, by rw [step_of_pending hbus]; rfl, rfl,
      busRead_congr (readReg_hardwareReset _)⟩

/-- Settles O54: every register's reset value is legal there. -/
theorem registerInvAtReset : Obligations.RegisterInvAtReset := registerInv_reset

end Sys2Proof.Machine
